-- ==== Sys2Proof/Word.lean ====
section
/-! DEFINITION. The two widths of the block's data: bytes on the link and in memory, and 32-bit addresses and
checksums (spec/00_scope.md R14). All values are unsigned. -/

namespace Sys2Proof

/-- One byte, the spec's `u8` (R14). -/
abbrev Byte := BitVec 8

/-- A 32-bit value, the spec's `u32` (R14): an address, a checksum, a debug-ID field. -/
abbrev Word := BitVec 32

end Sys2Proof
end

