-- ==== Sys2Proof/Config.lean ====
section
/-! DEFINITION. The configuration record CFG of spec/00_scope.md R8, R9 with the constraints its fields must meet, the
reference configuration REFCFG, and the free values: constants without a body for what the spec leaves to the
environment or to the platform (spec/10_state.md R52; spec/93_implementation_defined.md). -/

namespace Sys2Proof

/-- Which running-checksum primitive the platform has (R12, a parameter of the spec).
`reference` is the unit of R13; `platform k` is any other one, whose `crc_feed` is the free value
`Config.platformCrcFeed k`, so that a claim about every configuration is a claim about every checksum function. -/
inductive CrcUnit where
  | reference
  | platform (k : Nat)
  deriving DecidableEq, Repr

/-- The configuration record CFG (R8, R9). "No command can change a field of CFG." SRAM_SIZE, ST_OK and ST_FAIL have one
fixed value in R9 and are the constants below, not fields. -/
structure Cfg where
  flashBase     : Word
  flashEnd      : Word
  sramBase      : Word
  maxSectors    : Byte
  blVersion     : Byte
  helpList      : List Byte
  chipIdMask    : BitVec 16
  otpStub       : Byte
  addrValid     : Byte
  addrInvalid   : Byte
  stHwFail      : Byte
  stOutOfRange  : Byte
  stUnsupported : Byte
  stBadLength   : Byte
  crcInit       : Word
  crcUnit       : CrcUnit
  deriving DecidableEq, Repr

namespace Config

/-- SRAM_SIZE, "fixed by the source": 128 KiB (R9). -/
def sramSize : Word := 0x00020000#32

/-- ST_OK, fixed (R9). -/
def stOk : Byte := 0x00#8

/-- ST_FAIL, fixed: the status of a MemWrite to an invalid address (R9). -/
def stFail : Byte := 0x01#8

/-- The twelve assigned opcode values in ascending order (R100, R11). -/
def opcodeValues : List Byte :=
  [0x51#8, 0x52#8, 0x53#8, 0x54#8, 0x55#8, 0x56#8, 0x57#8, 0x58#8, 0x59#8, 0x5A#8, 0x5B#8, 0x5C#8]

/-- The reference configuration REFCFG, the values of the column REFCFG of R9 and the checksum unit of R13.
Log entry 1: it is the configuration of `State.reset`; statements quantify over the configuration. -/
def refCfg : Cfg where
  flashBase     := 0x08000000#32
  flashEnd      := 0x0807FFFF#32
  sramBase      := 0x20000000#32
  maxSectors    := 8#8
  blVersion     := 0x10#8
  helpList      := opcodeValues
  chipIdMask    := 0x0FFF#16
  otpStub       := 0x00#8
  addrValid     := 0x00#8
  addrInvalid   := 0x01#8
  stHwFail      := 0x01#8
  stOutOfRange  := 0x04#8
  stUnsupported := 0x02#8
  stBadLength   := 0x03#8
  crcInit       := 0xFFFFFFFF#32
  crcUnit       := .reference

/-- Free value (log entry 2): the `crc_feed` of a checksum unit that is not the reference one (R12). -/
opaque platformCrcFeed : Nat → Word → Byte → Word

/-- Free value (log entry 5): whether the n-th drawn erase or program primitive passes (R52, U11). -/
opaque freePasses : Nat → Bool

/-- Free value (log entry 6): the byte the bus returns for a byte of MEM the model does not know (R52, U10, U12). -/
opaque freeByte : Nat → Byte

/-- Free value (log entry 7): whether the option-byte controller completes a pending operation now (R36, R37). -/
opaque freeOptCompletes : Nat → Bool

/-- Free value (log entry 8): whether `OptUnlock()` alone already clears the lock bit (R35, U19). -/
opaque freeUnlockClears : Nat → Bool

/-- Free value (log entry 9): the persistent mask after a reset that interrupts a launch (R282, U18). -/
opaque freeMask : Nat → Byte

end Config

/-- The constraints of R9, R10, R11 (its order is ascending, so no value occurs twice), R69 on a configuration. The constraint of R12 on the checksum is
`Cfg.DetectsOneByte` in Safety.lean. -/
def Cfg.valid (c : Cfg) : Bool :=
  decide (c.flashBase ≤ c.flashEnd)
  && decide (c.sramBase.toNat + Config.sramSize.toNat ≤ 2 ^ 32)
  && (decide (c.flashEnd < c.sramBase) || decide (c.sramBase.toNat + Config.sramSize.toNat ≤ c.flashBase.toNat))
  && decide (1#8 ≤ c.maxSectors) && decide (c.maxSectors ≤ 8#8)
  && decide (c.helpList.length = 12) && decide (c.helpList.Pairwise (· < ·))
  && c.helpList.all (fun b => Config.opcodeValues.contains b)
  && (c.addrValid != c.addrInvalid)
  && (c.stHwFail != 0#8) && (c.stHwFail != c.stOutOfRange) && (c.stOutOfRange != 0#8)
  && (c.stUnsupported != 0#8) && (c.stBadLength != 0#8)

end Sys2Proof
end

