-- ==== Sys2Proof/Syntax.lean ====
section
/-! DEFINITION. The command set: one constructor per row of spec/opcode_table.json (spec/30_encoding.md R100), with the
operands of its payload format (R101 to R107). -/

namespace Sys2Proof

/-- A command with its operands. Payload bytes beyond the operands change no behaviour (R109), so they are no part of a
command; the encoder takes them as an extra argument. -/
inductive Instr where
  /-- GetVersion, `0x51`, format NONE (R225). -/
  | getVersion
  /-- GetHelp, `0x52`, format NONE (R226). -/
  | getHelp
  /-- GetChipId, `0x53`, format NONE (R227). -/
  | getChipId
  /-- GetReadoutProtectionStatus, `0x54`, format NONE (R229). -/
  | getReadoutProtectionStatus
  /-- GoToAddress, `0x55`, format ADDR (R102, R240). -/
  | goToAddress (addr : Word)
  /-- FlashErase, `0x56`, format ERASE: start sector, sector count (R103, R170). -/
  | flashErase (sec cnt : Byte)
  /-- MemWrite, `0x57`, format WRITE: address, then `DLEN` data bytes (R104, R185). `DLEN` is the length of `data`. -/
  | memWrite (addr : Word) (data : List Byte)
  /-- EnableWriteProtect, `0x58`, format PROT: mask, enable flag (R105, R207). -/
  | enableWriteProtect (mask flag : Byte)
  /-- MemRead, `0x59`, format READ: address, number of bytes (R106, R195). -/
  | memRead (addr : Word) (dlen : Byte)
  /-- ReadSectorStatus, `0x5A`, format NONE (R215). -/
  | readSectorStatus
  /-- OtpRead, `0x5B`, format ANY (R107, R231). -/
  | otpRead
  /-- DisableWriteProtect, `0x5C`, format NONE (R209). -/
  | disableWriteProtect
  deriving DecidableEq, Repr

end Sys2Proof
end

