-- ==== Sys2Proof/WellFormed.lean ====
section
/-! DEFINITION. Which commands have a frame. The one bound that the operand types do not already carry is the number of
data bytes of a MemWrite (spec/30_encoding.md R104). -/

namespace Sys2Proof

/-- The most data bytes a MemWrite frame can carry: `LEN = 10 + DLEN <= 255` (R104). -/
def maxWriteData : Nat := 245

/-- The data fit the frame (R104: "so DLEN <= 245"). -/
def dataFits (data : List Byte) : Bool := decide (data.length ≤ maxWriteData)

/-- A command that some command frame encodes. Every operand value of every other format has a frame. -/
def Instr.wf : Instr → Bool
  | .memWrite _ data => dataFits data
  | .getVersion | .getHelp | .getChipId | .getReadoutProtectionStatus => true
  | .goToAddress _ | .flashErase _ _ | .enableWriteProtect _ _ | .memRead _ _ => true
  | .readSectorStatus | .otpRead | .disableWriteProtect => true

end Sys2Proof
end

