-- ==== Sys2Proof/Decode.lean ====
section
/-! DEFINITION. From bytes to a command and back: the checksum of spec/00_scope.md R12, R13, the frame layout and the
opcode map of spec/30_encoding.md R90 to R113, the decoder in the order of tests of spec/60_exceptions.md R257, and the
encoder of R114. -/

namespace Sys2Proof

/-! ## Bytes and words (R15) -/

/-- `le32(b0, b1, b2, b3)`: the first byte on the link is the least significant (R15, R60). -/
def le32 (b0 b1 b2 b3 : Byte) : Word := b3 ++ b2 ++ b1 ++ b0

/-- `le32_bytes(v)`: `v[7:0], v[15:8], v[23:16], v[31:24]` (R114). -/
def le32Bytes (v : Word) : List Byte :=
  [v.extractLsb' 0 8, v.extractLsb' 8 8, v.extractLsb' 16 8, v.extractLsb' 24 8]

/-- Byte `k` of a sequence; the frame checks keep every use inside the sequence (R108). -/
def byteAt (bs : List Byte) (k : Nat) : Byte := bs.getD k 0#8

/-- The `u32` that starts at byte `k` of a sequence. -/
def wordAt (bs : List Byte) (k : Nat) : Word :=
  le32 (byteAt bs k) (byteAt bs (k + 1)) (byteAt bs (k + 2)) (byteAt bs (k + 3))

/-! ## The checksum (R12, R13) -/

/-- One of the 32 shifts of R13: the bit shifted out is tested first, then dropped. -/
def crcShift (acc : Word) : Word :=
  if acc.msb then (acc <<< 1) ^^^ 0x04C11DB7#32 else acc <<< 1

/-- `n` shifts. -/
def crcShifts : Nat → Word → Word
  | 0, acc => acc
  | n + 1, acc => crcShifts n (crcShift acc)

/-- `crc_feed` of the reference unit (R13): a byte is fed as one zero-extended 32-bit word. -/
def crcFeedReference (acc : Word) (b : Byte) : Word := crcShifts 32 (acc ^^^ b.setWidth 32)

/-- `crc_feed` of a checksum unit (R12). -/
def crcFeed : CrcUnit → Word → Byte → Word
  | .reference, acc, b => crcFeedReference acc b
  | .platform k, acc, b => Config.platformCrcFeed k acc b

/-- `crc_of(bytes)` (R12); of the empty sequence it is `CRC_INIT`. -/
def crcOf (c : Cfg) (bs : List Byte) : Word := bs.foldl (crcFeed c.crcUnit) c.crcInit

/-! ## The opcode map (R100) -/

/-- The seven payload formats (R101 to R107). -/
inductive Format where
  | none | addr | erase | write | prot | read | any
  deriving DecidableEq, Repr

/-- The twelve rows of the opcode map (R100). -/
inductive Opcode where
  | getVersion | getHelp | getChipId | getReadoutProtectionStatus | goToAddress | flashErase
  | memWrite | enableWriteProtect | memRead | readSectorStatus | otpRead | disableWriteProtect
  deriving DecidableEq, Repr

/-- The opcode map (R100). -/
def opcodeValue : Opcode → Byte
  | .getVersion => 0x51#8
  | .getHelp => 0x52#8
  | .getChipId => 0x53#8
  | .getReadoutProtectionStatus => 0x54#8
  | .goToAddress => 0x55#8
  | .flashErase => 0x56#8
  | .memWrite => 0x57#8
  | .enableWriteProtect => 0x58#8
  | .memRead => 0x59#8
  | .readSectorStatus => 0x5A#8
  | .otpRead => 0x5B#8
  | .disableWriteProtect => 0x5C#8

/-- The twelve rows, in the order of their opcodes. -/
def opcodeRows : List Opcode :=
  [.getVersion, .getHelp, .getChipId, .getReadoutProtectionStatus, .goToAddress, .flashErase,
   .memWrite, .enableWriteProtect, .memRead, .readSectorStatus, .otpRead, .disableWriteProtect]

/-- Opcode lookup: all 8 bits are compared (R100); the other 244 values are unassigned (R111). -/
def opcodeOf (b : Byte) : Option Opcode := opcodeRows.find? fun o => opcodeValue o == b

/-- The payload format column of R100. -/
def formatOf : Opcode → Format
  | .getVersion | .getHelp | .getChipId | .getReadoutProtectionStatus => .none
  | .goToAddress => .addr
  | .flashErase => .erase
  | .memWrite => .write
  | .enableWriteProtect => .prot
  | .memRead => .read
  | .readSectorStatus | .disableWriteProtect => .none
  | .otpRead => .any

/-- `NEED` (R108). `FB[6]` is byte 4 of the payload; it is looked at only when the payload reaches it. -/
def need : Format → List Byte → Nat
  | .none, _ => 0
  | .any, _ => 0
  | .addr, _ => 4
  | .erase, _ => 2
  | .prot, _ => 2
  | .read, _ => 5
  | .write, payload => if payload.length < 5 then 5 else 5 + (byteAt payload 4).toNat

/-- The operands of a payload that is long enough (R101 to R107, R110). -/
def operandsOf : Opcode → List Byte → Instr
  | .getVersion, _ => .getVersion
  | .getHelp, _ => .getHelp
  | .getChipId, _ => .getChipId
  | .getReadoutProtectionStatus, _ => .getReadoutProtectionStatus
  | .goToAddress, p => .goToAddress (wordAt p 0)
  | .flashErase, p => .flashErase (byteAt p 0) (byteAt p 1)
  | .memWrite, p => .memWrite (wordAt p 0) ((p.drop 5).take (byteAt p 4).toNat)
  | .enableWriteProtect, p => .enableWriteProtect (byteAt p 0) (byteAt p 1)
  | .memRead, p => .memRead (wordAt p 0) (byteAt p 4)
  | .readSectorStatus, _ => .readSectorStatus
  | .otpRead, _ => .otpRead
  | .disableWriteProtect, _ => .disableWriteProtect

/-! ## The frame (R90 to R94) -/

/-- The four error kinds that are raised before a handler runs (R18, R250). -/
inductive RaisedKind where
  | malformedFrame | checksumMismatch | unsupportedOpcode | badPayloadLength
  deriving DecidableEq, Repr

/-- Cuts the first frame off a stream: the length byte and `LEN` more bytes, whatever they are (R91, R133).
`none`: the stream ends inside the frame. -/
def delimit : List Byte → Option (List Byte × List Byte)
  | [] => none
  | len :: rest =>
    if len.toNat ≤ rest.length then some (len :: rest.take len.toNat, rest.drop len.toNat) else none

/-- The checksum window, bytes `[0, N-4)` of a frame of `N` bytes (R92). -/
def windowOf (frame : List Byte) : List Byte := frame.take (frame.length - 4)

/-- `HOSTCRC`, the last four bytes (R93). -/
def hostCrcOf (frame : List Byte) : Word := wordAt frame (frame.length - 4)

/-- The payload, bytes 2 to `N-5` (R90). -/
def payloadOf (frame : List Byte) : List Byte := (windowOf frame).drop 2

/-- The framing check (R94, R134): a frame with `LEN <= 4` is malformed. -/
def wellFramed (frame : List Byte) : Bool := decide (4#8 < byteAt frame 0)

/-- `verify(bytes, hostChecksum)` on the window and the host checksum of a frame (R135, R136). -/
def verifies (c : Cfg) (frame : List Byte) : Bool := decide (crcOf c (windowOf frame) = hostCrcOf frame)

/-- The part of the decoding that phase EXEC does on a verified frame: opcode lookup, then payload length, then operands
(R139, R140). -/
def decodeBody (frame : List Byte) : Except RaisedKind Instr :=
  match opcodeOf (byteAt frame 1) with
  | none => .error .unsupportedOpcode
  | some o =>
    if (payloadOf frame).length < need (formatOf o) (payloadOf frame) then .error .badPayloadLength
    else .ok (operandsOf o (payloadOf frame))

/-- The whole decoding of one delimited frame; the first test that fails decides (R257). -/
def decodeFrame (c : Cfg) (frame : List Byte) : Except RaisedKind Instr :=
  if wellFramed frame then
    if verifies c frame then decodeBody frame else .error .checksumMismatch
  else .error .malformedFrame

/-- The decoder: total on any bytes. It answers what the first frame of the stream stands for and the rest of the
stream, or `none` while the frame is not complete (R133). -/
def decode (c : Cfg) (stream : List Byte) : Option (Except RaisedKind Instr × List Byte) :=
  (delimit stream).map fun fr => (decodeFrame c fr.1, fr.2)

/-! ## The encoder (R114) -/

/-- The row of a command (R100). -/
def rowOf : Instr → Opcode
  | .getVersion => .getVersion
  | .getHelp => .getHelp
  | .getChipId => .getChipId
  | .getReadoutProtectionStatus => .getReadoutProtectionStatus
  | .goToAddress _ => .goToAddress
  | .flashErase _ _ => .flashErase
  | .memWrite _ _ => .memWrite
  | .enableWriteProtect _ _ => .enableWriteProtect
  | .memRead _ _ => .memRead
  | .readSectorStatus => .readSectorStatus
  | .otpRead => .otpRead
  | .disableWriteProtect => .disableWriteProtect

/-- The opcode byte of a command (R100). -/
def opcodeByte (i : Instr) : Byte := opcodeValue (rowOf i)

/-- The exact payload of a command: its operands in the order of its format (R101 to R107). -/
def operandBytes : Instr → List Byte
  | .getVersion => []
  | .getHelp => []
  | .getChipId => []
  | .getReadoutProtectionStatus => []
  | .goToAddress addr => le32Bytes addr
  | .flashErase sec cnt => [sec, cnt]
  | .memWrite addr data => le32Bytes addr ++ BitVec.ofNat 8 data.length :: data
  | .enableWriteProtect mask flag => [mask, flag]
  | .memRead addr dlen => le32Bytes addr ++ [dlen]
  | .readSectorStatus => []
  | .otpRead => []
  | .disableWriteProtect => []

/-- `frame(opc, payload)` (R114): length byte, opcode, payload, checksum of all of these. -/
def frameOf (c : Cfg) (opc : Byte) (payload : List Byte) : List Byte :=
  let window := BitVec.ofNat 8 (5 + payload.length) :: opc :: payload
  window ++ le32Bytes (crcOf c window)

/-- The frame of a command with `excess` payload bytes after its operands (R109). -/
def encodeWith (c : Cfg) (i : Instr) (excess : List Byte) : List Byte :=
  frameOf c (opcodeByte i) (operandBytes i ++ excess)

/-- The exact frame of a command (R114). -/
def encode (c : Cfg) (i : Instr) : List Byte := encodeWith c i []

/-! ## The opcode table's words (the host's numbering: bit 0 is bit 0 of the opcode byte) -/

/-- The bytes of an `nbits`-bit number, lowest first. -/
def tableBytes (nbits w : Nat) : List Byte :=
  (List.range ((nbits + 7) / 8)).map fun k => BitVec.ofNat 8 ((w % 2 ^ nbits) >>> (8 * k))

/-- The opcode byte of a table word. -/
def tableOpcode (nbits w : Nat) : Byte := byteAt (tableBytes nbits w) 0

/-- The payload of a table word: the bytes after the opcode byte, filled up with zero bytes to the payload its opcode
needs, and at most the 250 bytes a frame can carry (R91). -/
def tablePayload (nbits w : Nat) : List Byte :=
  let given := (tableBytes nbits w).drop 1
  let short :=
    match opcodeOf (tableOpcode nbits w) with
    | none => 0
    | some o => need (formatOf o) (given ++ List.replicate 5 0#8) - given.length
  (given ++ List.replicate short 0#8).take 250

/-- The frame that carries a table word: its length byte and its checksum are those of R114. -/
def tableFrame (c : Cfg) (nbits w : Nat) : List Byte := frameOf c (tableOpcode nbits w) (tablePayload nbits w)

/-- What the decoder reads from the frame of a table word, under the reference configuration. -/
def decodeTableWord (nbits w : Nat) : Option Instr :=
  match decode Config.refCfg (tableFrame Config.refCfg nbits w) with
  | some (.ok i, []) => some i
  | _ => none

end Sys2Proof
end

