-- ==== Sys2Proof/Machine/State.lean ====
section
/-! DEFINITION. The state of the block and of the environment it reaches (spec/10_state.md), as plain data, and its value
after reset (R45). The last two fields of `State`, the trace and the environment's choices, are the model's own. -/

namespace Sys2Proof.Machine

/-! ## Reasons to stop -/

/-- Why the machine stops with a fault. The spec gives the block none: every error kind is a response after which it goes
on (R250, R258), and a wait that never ends "is not an error kind" (R255) but a hold, a next state in which nothing has
moved. So the type has no constructor, and no claim can be weakened by a fault. Safe. -/
inductive Fault where
  deriving DecidableEq, Repr

/-- Why the machine refuses an instruction. -/
inductive Refusal where
  /-- Raised by an arm of `exec` whose instruction has no meaning in the model; no arm does. Safe. -/
  | notModelled (mnemonic : String)
  deriving DecidableEq, Repr

/-! ## The sequencer position (R25 to R27) -/

/-- `PH` (R26). -/
inductive Phase where
  | rxLen | rxBody | verify | exec | dead
  deriving DecidableEq, Repr

/-- The vocabulary of `STEP`. "A model may hold it as a counter, a continuation or a list of primitives still to run"
(R27): here it is a list of these, each one primitive of R17 or one register transfer of the pseudocode. -/
inductive Op where
  /-- `CrcReset()`. -/
  | crcReset
  /-- `CrcFeed(b)`. -/
  | crcFeed (b : Byte)
  /-- `v <- CrcValue()`. -/
  | crcValue
  /-- `Tx(b)`. -/
  | tx (b : Byte)
  /-- `Tx(STATUS)`. -/
  | txStatus
  /-- `Tx(v)`, `v` the byte a query has read. -/
  | txValue
  /-- `Tx(id[7:0])` with `id = v[15:0] AND CHIP_ID_MASK` (R227). -/
  | txIdLow
  /-- `Tx(id[15:8])` (R227). -/
  | txIdHigh
  /-- `Tx(v); I <- I + 1`, the second half of MemRead's loop body (R195). -/
  | txRead
  /-- `if CRC_OK = 0 then Tx(0x7F)` (R136, R138). -/
  | txNackIfBad
  /-- `FlashUnlock()`. -/
  | flashUnlock
  /-- `FlashLock()`. -/
  | flashLock
  /-- One turn of FlashErase's loop from sector `sec` (R170). -/
  | eraseSector (sec : Byte)
  /-- `r <- FlashMassErase()` (R170, R173). -/
  | massErase
  /-- `STATUS <- (ST_OK if r = PASS else ST_HW_FAIL)`, after the lock of a mass erase (R170). -/
  | massStatus
  /-- One turn of MemWrite's program-memory loop: byte `d` at `addr +_32 I` (R185). -/
  | programByte (addr : Word) (d : Byte)
  /-- One turn of MemWrite's volatile-memory loop: byte `d` at `addr +_32 I` (R185). -/
  | busWrite (addr : Word) (d : Byte)
  /-- `v <- MemRead(addr +_32 I, 1)`, the first half of MemRead's loop body (R195). -/
  | busRead (addr : Word)
  /-- `OptUnlock()`. -/
  | optUnlock
  /-- `OptLock()`. -/
  | optLock
  /-- `WaitOptIdle()`. -/
  | waitOptIdle
  /-- `OptCtlClearOptlock()`. -/
  | optClearOptlock
  /-- `OptCtlWriteNwrp(v)`. -/
  | optWriteNwrp (v : Byte)
  /-- `OptCtlSetOptstrt()`. -/
  | optSetOptstrt
  /-- `v <- OptCtlReadNwrp()`. -/
  | optReadNwrp
  /-- `v <- ObReadRdp()`. -/
  | obReadRdp
  /-- `d <- DbgIdRead()`. -/
  | dbgIdRead
  /-- `Go(t)`. -/
  | go (t : Word)
  /-- `STATUS <- v`. -/
  | setStatus (v : Byte)
  /-- `I <- 0`. -/
  | clearI
  /-- `NSEC <- n`. -/
  | setNsec (n : Byte)
  /-- `CRC_OK <- (v = HOSTCRC)` (R136). -/
  | judgeCrc
  /-- `PH <- EXEC` when `CRC_OK = 1`, else `PH <- RX_LEN` (R136, R138). -/
  | leaveVerify
  /-- `PH <- RX_LEN`. -/
  | enterRxLen
  /-- `PH <- DEAD`. -/
  | enterDead
  deriving DecidableEq, Repr

/-! ## Events (R17, R19) -/

/-- The result of an erase or program primitive (R17). -/
inductive FlResult where
  | pass | fail
  deriving DecidableEq, Repr

/-- One completed primitive, named as the right column of R17 names it, or the environment's `opt_complete` (R37). -/
inductive Event where
  | rx (b : Byte)
  | tx (b : Byte)
  | crcReset
  | crcFeed (b : Byte)
  | crcRead (v : Word)
  | flUnlock
  | flLock
  | flErase (s : Byte) (r : FlResult)
  | flMass (r : FlResult)
  | flProg (a : Word) (d : Byte) (r : FlResult)
  | optUnlock
  | optLock
  | optWait
  | optctlOptlock0
  | optctlNwrp (v : Byte)
  | optctlOptstrt1
  | optctlNwrpRead (v : Byte)
  | obRdpRead (v : Byte)
  | dbgIdRead (v : Word)
  | memRd (a : Word) (v : Byte)
  | memWr (a : Word) (v : Byte)
  | go (t : Word)
  | envOptComplete
  deriving DecidableEq, Repr

/-! ## Memory -/

/-- `MEM`, the system address space (R42): the bytes whose contents the model knows, by address. An address that is not
listed has contents the model does not know: a read of it returns a free value (R52, U10, U12; log entry 6). -/
abbrev Memory := List Host.Cell

/-- The canonical form: addresses of the 32-bit space, strictly rising. An unlisted address reads as no known value, so no
listed entry can equal what an unlisted one reads as. -/
def Memory.wf (m : Memory) : Bool :=
  decide (m.Pairwise fun c d => c.1 < d.1) && m.all fun c => decide (c.1 < 2 ^ 32)

/-! ## State -/

/-- `OPTCTL`, the option-control register, by field name (R32). Positions are not in the spec (R33, U28). -/
structure OptCtl where
  optlock : Bool
  optstrt : Bool
  nwrp    : Byte
  deriving DecidableEq, Repr

/-- What the environment will do: the choices R52 makes parameters of the step relation, as data a step reads and
advances (log entry 3). The model's own, not the spec's. -/
structure Env where
  /-- How many more primitives will complete before one holds the sequencer (R17); `none`: no limit (log entry 4). -/
  grant    : Option Nat
  /-- The results of the next erase and program primitives; when used up, `Config.freePasses` (log entry 5). -/
  flDraws  : List FlResult
  /-- The next bytes the bus returns for unknown bytes of MEM; when used up, `Config.freeByte` (log entry 6). -/
  rdDraws  : List Byte
  /-- Whether a pending option-byte operation completes at the next waits; when used up, `Config.freeOptCompletes`
  (log entry 7). -/
  optDraws : List Bool
  /-- Whether memories hold what is written to them, the assumption of session P2 (R70, R77; log entry 10). -/
  memKeeps : Bool
  /-- How many free values have been drawn. -/
  draws    : Nat
  deriving DecidableEq, Repr

/-- The state of the block (R20 to R29), of the environment it reaches (R30 to R44), the trace (R19) and the
environment's choices (R52). -/
structure State where
  /-- `CFG` (R8): fixed for the machine; no step changes it (log entry 1). -/
  cfg      : Cfg
  /-- The level of the reset input `rst_n` (R50, R280): true when released. -/
  rstN     : Bool
  /-- `PH` (R26). -/
  ph       : Phase
  /-- `STEP` (R27): what the phase in progress has still to do; empty at the start of a phase. -/
  step     : List Op
  /-- The pseudocode's local value `v` or `d`, part of `STEP` (R27). -/
  v        : Word
  /-- The pseudocode's local result `r` of a mass erase, part of `STEP` (R27): it is read after the lock (R170). -/
  r        : FlResult
  /-- `FB[0..255]` (R21). -/
  fb       : Vector Byte 256
  /-- `LEN` (R22). -/
  len      : Byte
  /-- `IDX`, 9 bits (R23). -/
  idx      : BitVec 9
  /-- `STATUS` (R28). -/
  status   : Byte
  /-- `I`, 9 bits (R28). -/
  i        : BitVec 9
  /-- `NSEC` (R28). -/
  nsec     : Byte
  /-- `CRC_OK` (R29). -/
  crcOk    : Bool
  /-- `CRC_ACC` (R30). -/
  crcAcc   : Word
  /-- `FL_LOCKED` (R31). -/
  flLocked : Bool
  /-- `OPTCTL` (R32). -/
  optctl   : OptCtl
  /-- `OPT_BUSY` (R36). -/
  optBusy  : Bool
  /-- `OB_NWRP` (R38). -/
  obNwrp   : Byte
  /-- `OB_RDP` (R39). -/
  obRdp    : Byte
  /-- `DBG_ID` (R40). -/
  dbgId    : Word
  /-- `MEM` (R42). -/
  mem      : Memory
  /-- `RXQ` (R43). -/
  rxq      : List Byte
  /-- `TXQ` (R44). -/
  txq      : List Byte
  /-- The trace: every event so far, oldest first (R19). The model's own. -/
  trace    : List Event
  /-- The environment's choices (R52). The model's own. -/
  env      : Env
  deriving DecidableEq, Repr

/-- The state right after reset (R45), of a device in the reference configuration with the launch parameters of
spec/95_test_vectors.md. The registers R45 calls unspecified hold zero (log entry 11), the launch parameters are log
entry 12, and the environment's choices are log entry 3. `CrcReset()`, the first act after reset (R281), is still to
run. -/
def State.reset : State where
  cfg      := Config.refCfg
  rstN     := true
  ph       := .rxLen
  step     := [.crcReset]
  v        := 0#32
  r        := .pass
  fb       := Vector.replicate 256 0#8
  len      := 0#8
  idx      := 0#9
  status   := 0#8
  i        := 0#9
  nsec     := 0#8
  crcOk    := false
  crcAcc   := Config.refCfg.crcInit
  flLocked := true
  optctl   := { optlock := true, optstrt := false, nwrp := 0xFF#8 }
  optBusy  := false
  obNwrp   := 0xFF#8
  obRdp    := 0xAA#8
  dbgId    := 0x10006421#32
  mem      := []
  rxq      := []
  txq      := []
  trace    := []
  env      :=
    { grant := none, flDraws := [], rdDraws := [], optDraws := [], memKeeps := true, draws := 0 }

end Sys2Proof.Machine
end

