-- ==== Sys2Proof/Machine/Flags.lean ====
section
/-! DEFINITION. The conditions the block computes: the address class (spec/41_address_classifier.md), the range test and
the clamp of FlashErase (spec/42_flash_erase.md R171, R174), the status values, and the masked chip identifier. The block
has no condition-code register (spec/10_state.md R29). -/

namespace Sys2Proof.Machine

/-- `AddressClass` (R160). -/
inductive AddressClass where
  | programMemory | volatileMemory | invalid
  deriving DecidableEq, Repr

/-- `[FLASH_BASE, FLASH_END]`, both ends included (R68). -/
def inProgram (c : Cfg) (a : Word) : Bool := decide (c.flashBase ≤ a) && decide (a ≤ c.flashEnd)

/-- `[SRAM_BASE, SRAM_BASE + SRAM_SIZE)`; the upper bound is formed in 33 bits (R68, R160). -/
def inVolatile (c : Cfg) (a : Word) : Bool :=
  decide (c.sramBase ≤ a) && decide (a.setWidth 33 < c.sramBase.setWidth 33 + Config.sramSize.setWidth 33)

/-- `classify(address)` (R160), a pure function of the address and the bounds (R163). -/
def classify (c : Cfg) (a : Word) : AddressClass :=
  if inProgram c a then .programMemory
  else if inVolatile c a then .volatileMemory
  else .invalid

/-- The mass-erase sentinel (R112, R173). -/
def massSentinel : Byte := 0xFF#8

/-- The range check of FlashErase (R171). -/
def eraseOutOfRange (c : Cfg) (sec cnt : Byte) : Bool :=
  cnt != massSentinel && (decide (c.maxSectors < cnt) || decide (c.maxSectors - 1#8 < sec))

/-- `min(CNT, MAX_SECTORS - SEC)` (R174). -/
def clampedCount (c : Cfg) (sec cnt : Byte) : Byte :=
  if cnt ≤ c.maxSectors - sec then cnt else c.maxSectors - sec

/-- The status after a single primitive: `ST_OK` when it passed, else `ST_HW_FAIL` (R173). -/
def resultStatus (c : Cfg) : FlResult → Byte
  | .pass => Config.stOk
  | .fail => c.stHwFail

/-- The status after one more primitive of a loop: a failure sticks (R175, R189). -/
def joinStatus (c : Cfg) (status : Byte) : FlResult → Byte
  | .pass => status
  | .fail => c.stHwFail

/-- `FLAG = 0x01`, on all 8 bits (R206). -/
def flagSet (flag : Byte) : Bool := decide (flag = 0x01#8)

/-- The byte stored for a mask: `NOT_8(MASK)` (R208). -/
def storedMask (mask : Byte) : Byte := ~~~mask

/-- The chip identifier: `DBG_ID[15:0] AND CHIP_ID_MASK` (R227, R228). -/
def chipId (c : Cfg) (d : Word) : BitVec 16 := d.extractLsb' 0 16 &&& c.chipIdMask

end Sys2Proof.Machine
end

