-- ==== Sys2Proof/Machine/Operands.lean ====
section
/-! DEFINITION. The frame in the frame buffer and the operand latches cut from it: aliases of `FB`, not separate storage
(spec/10_state.md R20 to R24). -/

namespace Sys2Proof.Machine

/-- `N = LEN + 1`, 1 to 256 (R22). -/
def State.frameSize (s : State) : Nat := s.len.toNat + 1

/-- `FB[0 .. N-1]`: the bytes of the current frame. -/
def State.frame (s : State) : List Byte := s.fb.toList.take s.frameSize

/-- `FB[k]` (R21). -/
def State.fbAt (s : State) (k : Nat) : Byte := byteAt s.fb.toList k

/-- `OPC = FB[1]` (R24). -/
def State.latchOpc (s : State) : Byte := s.fbAt 1

/-- `HOSTCRC = le32(FB[N-4], FB[N-3], FB[N-2], FB[N-1])` (R24, R93). -/
def State.latchHostCrc (s : State) : Word := hostCrcOf s.frame

/-- `PLEN = LEN - 5` (R24), used only when `LEN >= 5`. -/
def State.latchPlen (s : State) : Nat := s.len.toNat - 5

/-- `ADDR = le32(FB[2], FB[3], FB[4], FB[5])` (R24). -/
def State.latchAddr (s : State) : Word := le32 (s.fbAt 2) (s.fbAt 3) (s.fbAt 4) (s.fbAt 5)

/-- `DLEN = FB[6]` (R24). -/
def State.latchDlen (s : State) : Byte := s.fbAt 6

/-- `DATA[0] .. DATA[DLEN-1]`, `DATA[k] = FB[7 + k]` (R24). -/
def State.latchData (s : State) : List Byte := (s.fb.toList.drop 7).take s.latchDlen.toNat

/-- `SEC = FB[2]` (R24). -/
def State.latchSec (s : State) : Byte := s.fbAt 2

/-- `CNT = FB[3]` (R24). -/
def State.latchCnt (s : State) : Byte := s.fbAt 3

/-- `MASK = FB[2]` (R24). -/
def State.latchMask (s : State) : Byte := s.fbAt 2

/-- `FLAG = FB[3]` (R24). -/
def State.latchFlag (s : State) : Byte := s.fbAt 3

/-- `FB[k] <- b` (R16); an index beyond the buffer, which no rule forms (R21), stores nothing. -/
def storeByte (fb : Vector Byte 256) (k : Nat) (b : Byte) : Vector Byte 256 := fb.setIfInBounds k b

/-- Stores a sequence from index `k` on. -/
def storeBytes : Vector Byte 256 → Nat → List Byte → Vector Byte 256
  | fb, _, [] => fb
  | fb, k, b :: bs => storeBytes (storeByte fb k b) (k + 1) bs

/-- The byte address of turn `I` of a handler's loop: `ADDR +_32 zext_32(I)` (R110, R191). -/
def turnAddr (addr : Word) (i : BitVec 9) : Word := addr + i.setWidth 32

/-- The sector of turn `I` of FlashErase's loop: `SEC + I` (R174). -/
def turnSector (sec : Byte) (i : BitVec 9) : Byte := sec + i.setWidth 8

/-- The target of a hand-over: `ADDR +_32 1` (R242). -/
def goTarget (addr : Word) : Word := addr + 1#32

end Sys2Proof.Machine
end

