-- ==== Sys2Proof/Machine/Ops.lean ====
section
/-! DEFINITION. The named operations the handlers are made of: memory, the environment's choices, one operation per
primitive of spec/00_scope.md R17, running a list of them with holds, raising an error kind (R18) and reset
(spec/70_reset_and_hazards.md). -/

namespace Sys2Proof.Machine

/-! ## Memory (R42, R62) -/

/-- The contents of an address, when the model knows them. -/
def Memory.read? : Memory → Nat → Option Byte
  | [], _ => none
  | c :: m, a => if c.1 = a then some c.2 else Memory.read? m a

/-- The contents of an address become known. -/
def Memory.write : Memory → Nat → Byte → Memory
  | [], a, b => [(a, b)]
  | c :: m, a, b =>
    if a < c.1 then (a, b) :: c :: m
    else if a = c.1 then (a, b) :: m
    else c :: Memory.write m a b

/-- The contents of one address become unknown. -/
def Memory.forget (m : Memory) (a : Nat) : Memory := m.filter fun c => c.1 != a

/-- The contents of the addresses a test selects become unknown. -/
def Memory.forgetAll (m : Memory) (p : Word → Bool) : Memory := m.filter fun c => !p (BitVec.ofNat 32 c.1)

/-! ## The environment's choices (R52) -/

/-- One more primitive has completed. -/
def Env.spend (e : Env) : Env := { e with grant := e.grant.map (· - 1) }

/-- The result of the next erase or program primitive (R52, U11). -/
def Env.nextFl (e : Env) : FlResult :=
  match e.flDraws with
  | r :: _ => r
  | [] => if Config.freePasses e.draws then .pass else .fail

/-- That result has been used. -/
def Env.takeFl (e : Env) : Env :=
  match e.flDraws with
  | _ :: rs => { e with flDraws := rs }
  | [] => { e with draws := e.draws + 1 }

/-- The byte the bus returns for contents the model does not know (R52, U10). -/
def Env.nextRd (e : Env) : Byte :=
  match e.rdDraws with
  | b :: _ => b
  | [] => Config.freeByte e.draws

/-- That byte has been used. -/
def Env.takeRd (e : Env) : Env :=
  match e.rdDraws with
  | _ :: bs => { e with rdDraws := bs }
  | [] => { e with draws := e.draws + 1 }

/-- Whether the option-byte controller completes its pending operation at this wait (R36, R37). -/
def Env.nextOpt (e : Env) : Bool :=
  match e.optDraws with
  | b :: _ => b
  | [] => Config.freeOptCompletes e.draws

/-- That choice has been used. -/
def Env.takeOpt (e : Env) : Env :=
  match e.optDraws with
  | _ :: bs => { e with optDraws := bs }
  | [] => { e with draws := e.draws + 1 }

/-- A free value that has no script has been drawn. -/
def Env.draw (e : Env) : Env := { e with draws := e.draws + 1 }

/-- The environment completes no further primitive (R17, R255). -/
def stalled (s : State) : Bool := s.env.grant == some 0

/-- One more primitive has completed. -/
def spend (s : State) : State := { s with env := s.env.spend }

/-- The result of an erase or program primitive has been used. -/
def takeFl (s : State) : State := { s with env := s.env.takeFl }

/-- The choice at a wait has been used. -/
def takeOpt (s : State) : State := { s with env := s.env.takeOpt }

/-! ## The primitives (R17) -/

/-- An event is added to the trace (R19). -/
def emit (e : Event) (s : State) : State := { s with trace := s.trace ++ [e] }

/-- `Tx(b)`: one byte to the transmit stream (R44). -/
def primTx (b : Byte) (s : State) : State := emit (.tx b) { s with txq := s.txq ++ [b] }

/-- `CrcReset()` (R30). -/
def primCrcReset (s : State) : State := emit .crcReset { s with crcAcc := s.cfg.crcInit }

/-- `CrcFeed(b)` (R30). -/
def primCrcFeed (b : Byte) (s : State) : State :=
  emit (.crcFeed b) { s with crcAcc := crcFeed s.cfg.crcUnit s.crcAcc b }

/-- `v <- CrcValue()` (R30). -/
def primCrcValue (s : State) : State := emit (.crcRead s.crcAcc) { s with v := s.crcAcc }

/-- `FlashUnlock()`; its own status is not read (R31, R172). -/
def primFlashUnlock (s : State) : State := emit .flUnlock { s with flLocked := false }

/-- `FlashLock()`; its own status is not read (R31, R172). -/
def primFlashLock (s : State) : State := emit .flLock { s with flLocked := true }

/-- What an erase primitive does to MEM: any byte of program memory may have changed, whatever the result, since the map
from sectors to addresses is not in the spec (R42, R70, U12; log entry 10). -/
def eraseEffect (s : State) : State := { s with mem := s.mem.forgetAll (inProgram s.cfg) }

/-- What a program primitive does to MEM: the byte at `a` may have changed; it holds `d` only under the assumption
`memKeeps`, inside program memory, on a pass (R70, U12, U13; log entry 10). -/
def programEffect (a : Word) (d : Byte) (r : FlResult) (s : State) : State :=
  { s with mem :=
      if s.env.memKeeps && inProgram s.cfg a && decide (r = .pass) then s.mem.write a.toNat d
      else s.mem.forget a.toNat }

/-- What a bus write does to MEM: the byte at `a` may have changed; it holds `d` only under the assumption `memKeeps`,
inside volatile memory (R70, R77, U13; log entry 10). -/
def busWriteEffect (a : Word) (d : Byte) (s : State) : State :=
  { s with mem :=
      if s.env.memKeeps && inVolatile s.cfg a then s.mem.write a.toNat d
      else s.mem.forget a.toNat }

/-- The condition of FlashErase's loop, `I < NSEC and STATUS = ST_OK` (R170). -/
def eraseGoesOn (s : State) : Bool := decide (s.i < s.nsec.setWidth 9) && decide (s.status = Config.stOk)

/-- The body of FlashErase's loop: `r <- FlashEraseSector(SEC + I)`, the status, `I <- I + 1` (R170). -/
def primEraseSector (sec : Byte) (s : State) : State :=
  let t := eraseEffect (emit (.flErase (turnSector sec s.i) s.env.nextFl) (takeFl s))
  { t with status := joinStatus s.cfg s.status s.env.nextFl, i := s.i + 1#9 }

/-- `r <- FlashMassErase()` (R170, R173). -/
def primMassErase (s : State) : State :=
  let t := eraseEffect (emit (.flMass s.env.nextFl) (takeFl s))
  { t with r := s.env.nextFl }

/-- The body of MemWrite's program-memory loop: `r <- FlashProgramByte(ADDR +_32 I, DATA[I])`, the status,
`I <- I + 1`; a failure does not end the loop (R185, R188, R189). -/
def primProgramByte (addr : Word) (d : Byte) (s : State) : State :=
  let a := turnAddr addr s.i
  let t := programEffect a d s.env.nextFl (emit (.flProg a d s.env.nextFl) (takeFl s))
  { t with status := joinStatus s.cfg s.status s.env.nextFl, i := s.i + 1#9 }

/-- The body of MemWrite's volatile-memory loop: `MemWrite(ADDR +_32 I, 1, DATA[I])`, `I <- I + 1` (R185, R190). -/
def primBusWrite (addr : Word) (d : Byte) (s : State) : State :=
  let a := turnAddr addr s.i
  let t := busWriteEffect a d (emit (.memWr a d) s)
  { t with i := s.i + 1#9 }

/-- The byte a read of address `a` returns: the known contents, else a free value (R196, U10). -/
def busValue (a : Word) (s : State) : Byte := (s.mem.read? a.toNat).getD s.env.nextRd

/-- The state after that read: a free value, if one was needed, has been used. -/
def busTaken (a : Word) (s : State) : State :=
  { s with env := if (s.mem.read? a.toNat).isSome then s.env else s.env.takeRd }

/-- `v <- MemRead(ADDR +_32 I, 1)`, at any address (R195, R196). -/
def primBusRead (addr : Word) (s : State) : State :=
  let a := turnAddr addr s.i
  emit (.memRd a (busValue a s)) { busTaken a s with v := (busValue a s).setWidth 32 }

/-- `Tx(v); I <- I + 1` (R195). -/
def primTxRead (s : State) : State :=
  let t := primTx (s.v.setWidth 8) s
  { t with i := s.i + 1#9 }

/-- `OptUnlock()`: whether it alone clears the lock bit is the environment's (R35; log entry 8). -/
def primOptUnlock (s : State) : State :=
  emit .optUnlock
    { s with
      optctl := { s.optctl with optlock := s.optctl.optlock && !Config.freeUnlockClears s.env.draws }
      env := s.env.draw }

/-- `OptLock()` (R35). -/
def primOptLock (s : State) : State := emit .optLock { s with optctl := { s.optctl with optlock := true } }

/-- `OptCtlClearOptlock()`: `OPTCTL.OPTLOCK <- 0` (R32, R205). -/
def primOptClearOptlock (s : State) : State :=
  emit .optctlOptlock0 { s with optctl := { s.optctl with optlock := false } }

/-- `OptCtlWriteNwrp(v)`: the whole byte is replaced (R205); while `OPTLOCK = 1` the field cannot be changed (R32). -/
def primOptWriteNwrp (v : Byte) (s : State) : State :=
  emit (.optctlNwrp v) { s with optctl := { s.optctl with nwrp := if s.optctl.optlock then s.optctl.nwrp else v } }

/-- `OptCtlSetOptstrt()`: with `OPTLOCK = 0` it starts the launch and raises `OPT_BUSY` in the same step; with
`OPTLOCK = 1` it has no effect (R37 (a), (d)). -/
def primOptSetOptstrt (s : State) : State :=
  emit .optctlOptstrt1
    (if s.optctl.optlock then s
     else { s with optctl := { s.optctl with optstrt := true }, optBusy := true })

/-- `v <- OptCtlReadNwrp()` (R215). -/
def primOptReadNwrp (s : State) : State :=
  emit (.optctlNwrpRead s.optctl.nwrp) { s with v := s.optctl.nwrp.setWidth 32 }

/-- `v <- ObReadRdp()` (R229). -/
def primObReadRdp (s : State) : State := emit (.obRdpRead s.obRdp) { s with v := s.obRdp.setWidth 32 }

/-- `d <- DbgIdRead()` (R227). -/
def primDbgIdRead (s : State) : State := emit (.dbgIdRead s.dbgId) { s with v := s.dbgId }

/-- `Go(t)`: the hand-over event carries the target and nothing else (R242). -/
def primGo (t : Word) (s : State) : State := emit (.go t) s

/-- The environment's step `opt_complete` (R37 (b)). -/
def optComplete (s : State) : State :=
  emit .envOptComplete
    { s with obNwrp := s.optctl.nwrp, optctl := { s.optctl with optstrt := false }, optBusy := false }

/-- `WaitOptIdle()`, once it completes: nothing was pending, or the environment has completed it now (R36, R37). -/
def primWaitOptIdle (s : State) : State :=
  emit .optWait (if s.optBusy then optComplete (takeOpt s) else s)

/-- What an entry of `STEP` does to the state when it completes. -/
def perform : Op → State → State
  | .crcReset, s => primCrcReset s
  | .crcFeed b, s => primCrcFeed b s
  | .crcValue, s => primCrcValue s
  | .tx b, s => primTx b s
  | .txStatus, s => primTx s.status s
  | .txValue, s => primTx (s.v.setWidth 8) s
  | .txIdLow, s => primTx ((chipId s.cfg s.v).extractLsb' 0 8) s
  | .txIdHigh, s => primTx ((chipId s.cfg s.v).extractLsb' 8 8) s
  | .txRead, s => primTxRead s
  | .txNackIfBad, s => if s.crcOk then s else primTx 0x7F#8 s
  | .flashUnlock, s => primFlashUnlock s
  | .flashLock, s => primFlashLock s
  | .eraseSector sec, s => if eraseGoesOn s then primEraseSector sec s else s
  | .massErase, s => primMassErase s
  | .massStatus, s => { s with status := resultStatus s.cfg s.r }
  | .programByte addr d, s => primProgramByte addr d s
  | .busWrite addr d, s => primBusWrite addr d s
  | .busRead addr, s => primBusRead addr s
  | .optUnlock, s => primOptUnlock s
  | .optLock, s => primOptLock s
  | .waitOptIdle, s => primWaitOptIdle s
  | .optClearOptlock, s => primOptClearOptlock s
  | .optWriteNwrp v, s => primOptWriteNwrp v s
  | .optSetOptstrt, s => primOptSetOptstrt s
  | .optReadNwrp, s => primOptReadNwrp s
  | .obReadRdp, s => primObReadRdp s
  | .dbgIdRead, s => primDbgIdRead s
  | .go t, s => primGo t s
  | .setStatus v, s => { s with status := v }
  | .clearI, s => { s with i := 0#9 }
  | .setNsec n, s => { s with nsec := n }
  | .judgeCrc, s => { s with crcOk := decide (s.v = s.latchHostCrc) }
  | .leaveVerify, s => { s with ph := if s.crcOk then .exec else .rxLen }
  | .enterRxLen, s => { s with ph := .rxLen }
  | .enterDead, s => { s with ph := .dead }

/-- The entry calls no primitive in this state: a register transfer, a loop that has ended, a Nack that is not due. -/
def callsNothing : Op → State → Bool
  | .setStatus _, _ | .massStatus, _ | .clearI, _ | .setNsec _, _ | .judgeCrc, _ | .leaveVerify, _ | .enterRxLen, _ | .enterDead, _ => true
  | .txNackIfBad, s => s.crcOk
  | .eraseSector _, s => !eraseGoesOn s
  | .crcReset, _ | .crcFeed _, _ | .crcValue, _ => false
  | .tx _, _ | .txStatus, _ | .txValue, _ | .txIdLow, _ | .txIdHigh, _ | .txRead, _ => false
  | .flashUnlock, _ | .flashLock, _ | .massErase, _ | .programByte _ _, _ | .busWrite _ _, _ | .busRead _, _ => false
  | .optUnlock, _ | .optLock, _ | .waitOptIdle, _ | .optClearOptlock, _ | .optWriteNwrp _, _ => false
  | .optSetOptstrt, _ | .optReadNwrp, _ | .obReadRdp, _ | .dbgIdRead, _ | .go _, _ => false

/-- The environment at a launch that is pending: by its choice it takes its step `opt_complete` now, or not yet (R37 (b),
(c)). -/
def launchMoves (s : State) : State :=
  if s.optBusy then (if s.env.nextOpt then optComplete (takeOpt s) else takeOpt s) else s

/-- What the environment does while an entry holds: at a wait, where alone a launch can be pending, it may complete it
"at any later time", so also while the wait itself is held (R37 (b); log entry 7). -/
def whileHeld (op : Op) (s : State) : State := if op = .waitOptIdle then launchMoves s else s

/-- The entry is a wait for an operation that the environment does not complete now (R36, R211). -/
def waitsOn (op : Op) (s : State) : Bool := decide (op = .waitOptIdle) && s.optBusy && !s.env.nextOpt

/-! ## Running with holds (R17) -/

/-- An entry of `STEP` completes, or holds the sequencer where it is. -/
inductive Progress where
  | done (s : State)
  | hold (s : State)
  deriving DecidableEq, Repr

/-- One entry of `STEP`. "A primitive that cannot complete holds the sequencer where it is; nothing else in the block
moves while it holds" (R17); the environment may. -/
def advance (op : Op) (s : State) : Progress :=
  if callsNothing op s then .done (perform op s)
  else if stalled s || waitsOn op s then .hold (whileHeld op s)
  else .done (perform op (spend s))

/-- Runs a list of entries in order, each to completion before the next (R72); a hold leaves the rest in `STEP`. -/
def run : List Op → State → State
  | [], s => s
  | op :: ops, s =>
    match advance op s with
    | .done t => run ops t
    | .hold t => { t with step := op :: ops }

/-- Goes on from where a hold left the sequencer. -/
def resume (s : State) : State := run s.step { s with step := [] }

/-- Starts a handler in phase EXEC. -/
def startHandler (ops : List Op) (s : State) : State := run ops { s with ph := .exec, step := [] }

/-- The Ack header: `Tx(0xA5); Tx(replyLength)` (R141). -/
def ackHeader (replyLength : Byte) : List Op := [.tx 0xA5#8, .tx replyLength]

/-! ## Raising an error kind (R18, R250) and the return from it (R259) -/

/-- The response bytes of a raised kind (R250). -/
def raiseResponse (c : Cfg) : RaisedKind → List Byte
  | .malformedFrame => [0x7F#8]
  | .checksumMismatch => [0x7F#8]
  | .unsupportedOpcode => [0xA5#8, 0x01#8, c.stUnsupported]
  | .badPayloadLength => [0xA5#8, 0x01#8, c.stBadLength]

/-- `raise kind`: the response bytes and nothing else, then `PH <- RX_LEN`, which is also the whole return (R18, R258,
R259). -/
def raiseOps (c : Cfg) (k : RaisedKind) : List Op := (raiseResponse c k).map .tx ++ [.enterRxLen]

/-- Raising a kind in a state. -/
def raise (k : RaisedKind) (s : State) : State := run (raiseOps s.cfg k) { s with step := [] }

/-! ## Receiving (R131, R132) -/

/-- Phase RX_LEN with byte `b` taken (R131). -/
def receiveLength (b : Byte) (s : State) : State :=
  emit (.rx b)
    { s with
      fb := storeByte s.fb 0 b
      len := b
      idx := 1#9
      ph := if b = 0#8 then .verify else .rxBody }

/-- One turn of the loop of phase RX_BODY with byte `b` taken, and the loop's exit when the frame is complete (R132). -/
def receiveBody (b : Byte) (s : State) : State :=
  emit (.rx b)
    { s with
      fb := storeByte s.fb s.idx.toNat b
      idx := s.idx + 1#9
      ph := if s.idx.toNat + 1 < s.frameSize then .rxBody else .verify }

/-- `RxByte()` and what the phase does with the byte; it holds until the host supplies one (R17, R43). -/
def receive (use : Byte → State → State) (s : State) : State :=
  match s.rxq with
  | [] => s
  | b :: rest => if stalled s then s else use b { spend s with rxq := rest }

/-- Phase RX_BODY: `while IDX < LEN + 1` (R132). -/
def receiveBodyStep (s : State) : State :=
  if s.idx.toNat < s.frameSize then receive receiveBody s else { s with ph := .verify }

/-- `rx_ready`: 1 exactly in phases RX_LEN and RX_BODY (R51), and inactive like every output while `rst_n = 0` (R280). -/
def State.rxReady (s : State) : Bool := s.rstN && (decide (s.ph = .rxLen) || decide (s.ph = .rxBody))

/-! ## Verifying (R134 to R138) -/

/-- Phase VERIFY: the framing check, then the checksum check. -/
def verifyOps (s : State) : List Op :=
  if wellFramed s.frame then
    (windowOf s.frame).map .crcFeed ++ [.crcValue, .crcReset, .judgeCrc, .txNackIfBad, .leaveVerify]
  else raiseOps s.cfg .malformedFrame

/-! ## Reset (R45, R280 to R283) -/

/-- The bytes of MEM that the primitive in progress, the first entry of `STEP`, can reach. -/
def inProgress (s : State) : Word → Bool :=
  match s.step with
  | .eraseSector _ :: _ => inProgram s.cfg
  | .massErase :: _ => inProgram s.cfg
  | .programByte addr _ :: _ => fun a => decide (a = turnAddr addr s.i)
  | .busWrite addr _ :: _ => fun a => decide (a = turnAddr addr s.i)
  | _ => fun _ => false

/-- What a reset leaves of MEM: everything, but a memory primitive that the reset abandons may have had its effect or not
(R282). What a loss of power takes away is in `powerUp` (R283). -/
def memAfterReset (s : State) : Memory := s.mem.forgetAll (inProgress s)

/-- The persistent mask after a reset: unchanged, but a free value when the reset interrupts a launch (R45, R282, U18;
log entry 9). -/
def maskAfterReset (s : State) : Byte := if s.optBusy then Config.freeMask s.env.draws else s.obNwrp

/-- The reset of the block and, with it, of the memory controller (R45, R280, R282). -/
def applyReset (s : State) : State :=
  { s with
    ph       := .rxLen
    step     := [.crcReset]
    v        := State.reset.v
    r        := State.reset.r
    fb       := State.reset.fb
    len      := State.reset.len
    idx      := State.reset.idx
    status   := State.reset.status
    i        := State.reset.i
    nsec     := State.reset.nsec
    crcOk    := State.reset.crcOk
    crcAcc   := s.cfg.crcInit
    flLocked := true
    optctl   := { optlock := true, optstrt := false, nwrp := maskAfterReset s }
    optBusy  := false
    obNwrp   := maskAfterReset s
    mem      := memAfterReset s
    rxq      := []
    txq      := []
    env      := s.env.draw }

/-! ## The outside world (R50, R52) -/

/-- The host supplies bytes and the receive driver keeps them (R43). Bytes a driver loses are bytes not supplied. -/
def hostSends (bs : List Byte) (s : State) : State := { s with rxq := s.rxq ++ bs }

/-- The outside world drives `rst_n` (R280). -/
def setRstN (level : Bool) (s : State) : State := { s with rstN := level }

/-- The power comes on: "Power-up is a reset. In addition volatile memory loses its contents" (R283), and of MEM program
memory alone survives a power cycle (R266). The next step is the reset. -/
def powerUp (s : State) : State :=
  setRstN false { s with mem := s.mem.forgetAll fun a => !inProgram s.cfg a }

/-- The environment changes how many more primitives it completes (R17). -/
def setGrant (g : Option Nat) (s : State) : State := { s with env := { s.env with grant := g } }

end Sys2Proof.Machine
end

