-- ==== Sys2Proof/Machine/DeviceInfo.lean ====
section
/-! DEFINITION. The five queries of the device-info register file: GetVersion, GetHelp, GetChipId,
GetReadoutProtectionStatus, OtpRead (spec/45_device_info.md). Each has its list of primitives and its meaning. -/

namespace Sys2Proof.Machine

/-- GetVersion (R225). -/
def getVersionOps (c : Cfg) : List Op := ackHeader 1#8 ++ [.tx c.blVersion, .enterRxLen]

/-- GetVersion (R225). -/
def execGetVersion (s : State) : Host.Outcome State Fault Refusal :=
  .next (startHandler (getVersionOps s.cfg) s)

/-- GetHelp: the length of `HELP_LIST`, then the list (R226). -/
def getHelpOps (c : Cfg) : List Op :=
  ackHeader (BitVec.ofNat 8 c.helpList.length) ++ c.helpList.map .tx ++ [.enterRxLen]

/-- GetHelp (R226). -/
def execGetHelp (s : State) : Host.Outcome State Fault Refusal :=
  .next (startHandler (getHelpOps s.cfg) s)

/-- GetChipId: low byte first (R227). -/
def getChipIdOps : List Op := ackHeader 2#8 ++ [.dbgIdRead, .txIdLow, .txIdHigh, .enterRxLen]

/-- GetChipId (R227). -/
def execGetChipId (s : State) : Host.Outcome State Fault Refusal :=
  .next (startHandler getChipIdOps s)

/-- GetReadoutProtectionStatus: the byte itself (R229, R230). -/
def getReadoutProtectionStatusOps : List Op := ackHeader 1#8 ++ [.obReadRdp, .txValue, .enterRxLen]

/-- GetReadoutProtectionStatus (R229). -/
def execGetReadoutProtectionStatus (s : State) : Host.Outcome State Fault Refusal :=
  .next (startHandler getReadoutProtectionStatusOps s)

/-- OtpRead: the stub byte; no memory is read (R231). -/
def otpReadOps (c : Cfg) : List Op := ackHeader 1#8 ++ [.tx c.otpStub, .enterRxLen]

/-- OtpRead (R231). -/
def execOtpRead (s : State) : Host.Outcome State Fault Refusal :=
  .next (startHandler (otpReadOps s.cfg) s)

end Sys2Proof.Machine
end

