-- ==== Sys2Proof/Machine/FlashErase.lean ====
section
/-! DEFINITION. FlashErase (spec/42_flash_erase.md). -/

namespace Sys2Proof.Machine

/-- The operation of FlashErase between the Ack header and the status byte (R170): out of range, mass erase, or the
clamped sector range. A turn of the loop whose condition has become false calls nothing (R175). -/
def flashEraseWork (c : Cfg) (sec cnt : Byte) : List Op :=
  if eraseOutOfRange c sec cnt then [.setStatus c.stOutOfRange]
  else if cnt = massSentinel then [.flashUnlock, .massErase, .flashLock, .massStatus]
  else
    [.setNsec (clampedCount c sec cnt), .flashUnlock, .setStatus Config.stOk, .clearI]
      ++ List.replicate (clampedCount c sec cnt).toNat (.eraseSector sec) ++ [.flashLock]

/-- FlashErase (R170). -/
def flashEraseOps (c : Cfg) (sec cnt : Byte) : List Op :=
  ackHeader 1#8 ++ flashEraseWork c sec cnt ++ [.txStatus, .enterRxLen]

/-- FlashErase (R170). -/
def execFlashErase (sec cnt : Byte) (s : State) : Host.Outcome State Fault Refusal :=
  .next (startHandler (flashEraseOps s.cfg sec cnt) s)

end Sys2Proof.Machine
end

