-- ==== Sys2Proof/Machine/MemAccess.lean ====
section
/-! DEFINITION. MemWrite and MemRead (spec/43_mem_write_read.md). -/

namespace Sys2Proof.Machine

/-- The operation of MemWrite between the Ack header and the status byte (R185): only `ADDR` is classified, and it is
classified once (R186). -/
def memWriteWork (c : Cfg) (addr : Word) (data : List Byte) : List Op :=
  match classify c addr with
  | .invalid => [.setStatus Config.stFail]
  | .programMemory =>
    [.flashUnlock, .setStatus Config.stOk, .clearI] ++ data.map (.programByte addr) ++ [.flashLock]
  | .volatileMemory => [.clearI] ++ data.map (.busWrite addr) ++ [.setStatus Config.stOk]

/-- MemWrite (R185). -/
def memWriteOps (c : Cfg) (addr : Word) (data : List Byte) : List Op :=
  ackHeader 1#8 ++ memWriteWork c addr data ++ [.txStatus, .enterRxLen]

/-- MemWrite (R185). -/
def execMemWrite (addr : Word) (data : List Byte) (s : State) : Host.Outcome State Fault Refusal :=
  .next (startHandler (memWriteOps s.cfg addr data) s)

/-- `n` turns of MemRead's loop: read, then transmit, before the next read (R197). -/
def readTurns (addr : Word) : Nat → List Op
  | 0 => []
  | n + 1 => .busRead addr :: .txRead :: readTurns addr n

/-- MemRead: any address, no classification (R195, R196). -/
def memReadOps (addr : Word) (dlen : Byte) : List Op :=
  ackHeader dlen ++ [.clearI] ++ readTurns addr dlen.toNat ++ [.enterRxLen]

/-- MemRead (R195). -/
def execMemRead (addr : Word) (dlen : Byte) (s : State) : Host.Outcome State Fault Refusal :=
  .next (startHandler (memReadOps addr dlen) s)

end Sys2Proof.Machine
end

