-- ==== Sys2Proof/Machine/Transfer.lean ====
section
/-! DEFINITION. GoToAddress, the only control transfer (spec/46_execution_transfer.md). -/

namespace Sys2Proof.Machine

/-- GoToAddress: the address as received is classified; the validity byte is transmitted before the hand-over, after
which the block is DEAD (R240 to R244). -/
def goToAddressOps (c : Cfg) (addr : Word) : List Op :=
  ackHeader 1#8 ++
    match classify c addr with
    | .invalid => [.tx c.addrInvalid, .enterRxLen]
    | .programMemory | .volatileMemory => [.tx c.addrValid, .go (goTarget addr), .enterDead]

/-- GoToAddress (R240). -/
def execGoToAddress (addr : Word) (s : State) : Host.Outcome State Fault Refusal :=
  .next (startHandler (goToAddressOps s.cfg addr) s)

end Sys2Proof.Machine
end

