-- ==== Sys2Proof/Machine/WriteProtect.lean ====
section
/-! DEFINITION. EnableWriteProtect, DisableWriteProtect, ReadSectorStatus (spec/44_write_protection.md). -/

namespace Sys2Proof.Machine

/-- `UpdateNwrp(value)`: the seven steps of the option-byte update sequence (R205). -/
def updateNwrp (value : Byte) : List Op :=
  [.optUnlock, .waitOptIdle, .optClearOptlock, .optWriteNwrp value, .optSetOptstrt, .waitOptIdle, .optLock]

/-- EnableWriteProtect: it acts only when the flag is `0x01`, and otherwise replies with length 0 (R206, R207). -/
def enableWriteProtectOps (mask flag : Byte) : List Op :=
  if flagSet flag then
    ackHeader 1#8 ++ updateNwrp (storedMask mask) ++ [.setStatus Config.stOk, .txStatus, .enterRxLen]
  else ackHeader 0#8 ++ [.enterRxLen]

/-- EnableWriteProtect (R207). -/
def execEnableWriteProtect (mask flag : Byte) (s : State) : Host.Outcome State Fault Refusal :=
  .next (startHandler (enableWriteProtectOps mask flag) s)

/-- DisableWriteProtect: the same ceremony with all ones (R209). -/
def disableWriteProtectOps : List Op :=
  ackHeader 1#8 ++ updateNwrp 0xFF#8 ++ [.setStatus Config.stOk, .txStatus, .enterRxLen]

/-- DisableWriteProtect (R209). -/
def execDisableWriteProtect (s : State) : Host.Outcome State Fault Refusal :=
  .next (startHandler disableWriteProtectOps s)

/-- ReadSectorStatus: the raw byte of `OPTCTL.NWRP` (R215, R216). -/
def readSectorStatusOps : List Op := ackHeader 1#8 ++ [.optReadNwrp, .txValue, .enterRxLen]

/-- ReadSectorStatus (R215). -/
def execReadSectorStatus (s : State) : Host.Outcome State Fault Refusal :=
  .next (startHandler readSectorStatusOps s)

end Sys2Proof.Machine
end

