-- ==== Sys2Proof/Machine/Dispatch.lean ====
section
/-! DEFINITION. Dispatch to exactly one handler (spec/40_frame_dispatch_crc.md R140), one arm per command. -/

namespace Sys2Proof.Machine

-- the handler of a command, from the state in which phase EXEC has decoded it (R130, R140)
def exec (i : Instr) (s : State) : Host.Outcome State Fault Refusal :=
  match i with
  | .getVersion => Sys2Proof.Machine.execGetVersion s
  | .getHelp => Sys2Proof.Machine.execGetHelp s
  | .getChipId => Sys2Proof.Machine.execGetChipId s
  | .getReadoutProtectionStatus => Sys2Proof.Machine.execGetReadoutProtectionStatus s
  | .goToAddress addr => Sys2Proof.Machine.execGoToAddress addr s
  | .flashErase sec cnt => Sys2Proof.Machine.execFlashErase sec cnt s
  | .memWrite addr data => Sys2Proof.Machine.execMemWrite addr data s
  | .enableWriteProtect mask flag => Sys2Proof.Machine.execEnableWriteProtect mask flag s
  | .memRead addr dlen => Sys2Proof.Machine.execMemRead addr dlen s
  | .readSectorStatus => Sys2Proof.Machine.execReadSectorStatus s
  | .otpRead => Sys2Proof.Machine.execOtpRead s
  | .disableWriteProtect => Sys2Proof.Machine.execDisableWriteProtect s

end Sys2Proof.Machine
end

