-- ==== Sys2Proof/Machine/Step.lean ====
section
/-! DEFINITION. One step: a byte received, a verification, or a handler, each run until it completes or holds
(spec/10_state.md R26; spec/40_frame_dispatch_crc.md R130). -/

namespace Sys2Proof.Machine

/-- Phase RX_LEN (R131), after the act that a reset leaves to do (R281). -/
def stepRxLen (s : State) : State :=
  match s.step with
  | [] => receive receiveLength s
  | _ :: _ => resume s

/-- Phase VERIFY (R134 to R138), from its start or from where a hold left it. -/
def stepVerify (s : State) : State :=
  match s.step with
  | [] => run (verifyOps s) s
  | _ :: _ => resume s

/-- Phase EXEC (R139, R140): the frame in `FB` is decoded and its handler runs, or an error kind is raised; or the
handler goes on from where a hold left it. -/
def stepExec (s : State) : Host.Outcome State Fault Refusal :=
  match s.step with
  | [] =>
    match decodeBody s.frame with
    | .ok i => exec i s
    | .error k => .next (raise k s)
  | _ :: _ => .next (resume s)

/-- One step of the machine. While `rst_n = 0` every element takes its reset value (R280); in DEAD nothing happens until
reset (R26, R244). -/
def step (s : State) : Host.Outcome State Fault Refusal :=
  if s.rstN then
    match s.ph with
    | .rxLen => .next (stepRxLen s)
    | .rxBody => .next (receiveBodyStep s)
    | .verify => .next (stepVerify s)
    | .exec => stepExec s
    | .dead => .next s
  else .next (applyReset s)

/-- The state with a frame in `FB`, received and verified: phase EXEC is about to decode it. -/
def State.withFrame (s : State) (frame : List Byte) : State :=
  { s with
    ph    := .exec
    step  := []
    fb    := storeBytes s.fb 0 frame
    len   := byteAt frame 0
    idx   := BitVec.ofNat 9 frame.length
    crcOk := true }

/-- The host's placing of a table word: its frame (length byte and checksum added) stands in `FB`, verified, so that the
next step decodes and runs it (log entry 13). -/
def State.withFetchWord (s : State) (nbits w : Nat) : State := s.withFrame (tableFrame s.cfg nbits w)

end Sys2Proof.Machine
end

