-- ==== Sys2Proof/Safety.lean ====
section
/-! DEFINITION. The terms the claims are stated in: the list of primitives of a command, the state a completed command
leaves, the brackets of spec/20_memory.md R75, the orderly states (at rest everything is locked and the accumulator is
clean, spec/40_frame_dispatch_crc.md R137, spec/60_exceptions.md R259), and the checksum property of spec/00_scope.md
R12. -/

namespace Sys2Proof

/-- The property R12 asks of any checksum primitive: changing one byte of a sequence to any other value changes
`crc_of`. -/
def Cfg.DetectsOneByte (c : Cfg) : Prop :=
  ∀ (before after : List Byte) (b b' : Byte), b ≠ b' →
    crcOf c (before ++ b :: after) ≠ crcOf c (before ++ b' :: after)

namespace Machine

/-! ## Commands -/

/-- The list of primitives and transfers of a command's handler, the one its meaning runs. -/
def handlerOps (c : Cfg) : Instr → List Op
  | .getVersion => getVersionOps c
  | .getHelp => getHelpOps c
  | .getChipId => getChipIdOps
  | .getReadoutProtectionStatus => getReadoutProtectionStatusOps
  | .goToAddress addr => goToAddressOps c addr
  | .flashErase sec cnt => flashEraseOps c sec cnt
  | .memWrite addr data => memWriteOps c addr data
  | .enableWriteProtect mask flag => enableWriteProtectOps mask flag
  | .memRead addr dlen => memReadOps addr dlen
  | .readSectorStatus => readSectorStatusOps
  | .otpRead => otpReadOps c
  | .disableWriteProtect => disableWriteProtectOps

/-- `k` steps of the machine, stopping at a fault or a refusal. -/
def steps (k : Nat) (s : State) : Host.Outcome State Fault Refusal := core.run k s

/-- The events of transmitting a sequence of bytes. -/
def txs (bs : List Byte) : List Event := bs.map .tx

/-- The state after a command that has answered `bytes`, with the events `evs`, and has returned to RX_LEN: nothing else
has changed. -/
def answered (s : State) (bytes : List Byte) (evs : List Event) : State :=
  { s with ph := .rxLen, step := [], txq := s.txq ++ bytes, trace := s.trace ++ evs }

/-- The bytes of memory that MemWrite's program loop leaves, given each byte's result (R185, R188; log entry 10). -/
def programmed (c : Cfg) (keeps : Bool) : Word → List (Byte × FlResult) → Memory → Memory
  | _, [], m => m
  | a, (d, r) :: rest, m =>
    programmed c keeps (a + 1#32) rest
      (if keeps && inProgram c a && decide (r = .pass) then m.write a.toNat d else m.forget a.toNat)

/-- The bytes of memory that MemWrite's volatile loop leaves (R190; log entry 10). -/
def busWritten (c : Cfg) (keeps : Bool) : Word → List Byte → Memory → Memory
  | _, [], m => m
  | a, d :: rest, m =>
    busWritten c keeps (a + 1#32) rest
      (if keeps && inVolatile c a then m.write a.toNat d else m.forget a.toNat)

/-- The events of erasing sectors `sec`, `sec + 1`, … with the given results, in ascending order (R174). -/
def eraseEvents : Byte → List FlResult → List Event
  | _, [] => []
  | sec, r :: rs => .flErase sec r :: eraseEvents (sec + 1#8) rs

/-- The events of programming bytes at ascending addresses (R188). -/
def programEvents : Word → List (Byte × FlResult) → List Event
  | _, [] => []
  | a, (d, r) :: rest => .flProg a d r :: programEvents (a + 1#32) rest

/-- The events of bus writes at ascending addresses (R190). -/
def busWriteEvents : Word → List Byte → List Event
  | _, [] => []
  | a, d :: rest => .memWr a d :: busWriteEvents (a + 1#32) rest

/-- The events of reading and transmitting bytes at ascending addresses, interleaved (R197). -/
def readEvents : Word → List Byte → List Event
  | _, [] => []
  | a, b :: rest => .memRd a b :: .tx b :: readEvents (a + 1#32) rest

/-- Whether a launch started by a protection update that begins in `s` completes when the block waits for it (R37): the
environment's choice after the one draw of `OptUnlock()`. -/
def launchCompletes (s : State) : Bool := s.env.draw.nextOpt

/-- The environment's choices after that update. -/
def envAfterLaunch (s : State) : Env := s.env.draw.takeOpt

/-! ## Responses (R97) -/

/-- The reply length of a command's response (R97); for GetHelp it is the length of `HELP_LIST`, 12. -/
def replyLength (c : Cfg) : Instr → Byte
  | .getVersion => 1#8
  | .getHelp => BitVec.ofNat 8 c.helpList.length
  | .getChipId => 2#8
  | .getReadoutProtectionStatus => 1#8
  | .goToAddress _ => 1#8
  | .flashErase _ _ => 1#8
  | .memWrite _ _ => 1#8
  | .enableWriteProtect _ flag => if flag = 0x01#8 then 1#8 else 0#8
  | .memRead _ dlen => dlen
  | .readSectorStatus => 1#8
  | .otpRead => 1#8
  | .disableWriteProtect => 1#8

/-! ## Brackets (R75 (b)) -/

/-- What a trace has open: the memory controller between an unlock and the next lock, the option bytes likewise. -/
structure Brackets where
  flash  : Bool
  option : Bool
  deriving DecidableEq, Repr

/-- One event: an erase or program primitive needs the first bracket open, a write of an `OPTCTL` field the second. `none`:
the rule is broken. -/
def Brackets.next (b : Brackets) : Event → Option Brackets
  | .flUnlock => some { b with flash := true }
  | .flLock => some { b with flash := false }
  | .optUnlock => some { b with option := true }
  | .optLock => some { b with option := false }
  | .flErase _ _ => if b.flash then some b else none
  | .flMass _ => if b.flash then some b else none
  | .flProg _ _ _ => if b.flash then some b else none
  | .optctlOptlock0 => if b.option then some b else none
  | .optctlNwrp _ => if b.option then some b else none
  | .optctlOptstrt1 => if b.option then some b else none
  | .rx _ => some b
  | .tx _ => some b
  | .crcReset => some b
  | .crcFeed _ => some b
  | .crcRead _ => some b
  | .optWait => some b
  | .optctlNwrpRead _ => some b
  | .obRdpRead _ => some b
  | .dbgIdRead _ => some b
  | .memRd _ _ => some b
  | .memWr _ _ => some b
  | .go _ => some b
  | .envOptComplete => some b

/-- A sequence of events. -/
def Brackets.scan : Brackets → List Event → Option Brackets
  | b, [] => some b
  | b, e :: es => match b.next e with
    | some b' => b'.scan es
    | none => none

/-- Nothing open. -/
def Brackets.closed : Brackets := { flash := false, option := false }

/-! ## Orderly states -/

/-- Where the sequencer stands with the devices beside the block. -/
inductive Stage where
  | rest | feeding | flash | optOpen | optCleared | optWritten | optLaunched | optDone | ended
  deriving DecidableEq, Repr

/-- No launch is pending and `OPTCTL.NWRP` holds the persistent mask (R36, R216). -/
def optSettled (s : State) : Prop := s.optctl.optstrt = false ∧ s.optBusy = false ∧ s.optctl.nwrp = s.obNwrp

/-- Everything of the option-byte controller as it is between commands: settled and locked (R259). -/
def optAtRest (s : State) : Prop := s.optctl.optlock = true ∧ optSettled s

/-- The accumulator is clean (R137). -/
def crcClean (s : State) : Prop := s.crcAcc = s.cfg.crcInit

/-- What each stage says of the state. -/
def atStage : Stage → State → Prop
  | .rest, s => s.flLocked = true ∧ crcClean s ∧ optAtRest s
  | .ended, s => s.flLocked = true ∧ crcClean s ∧ optAtRest s
  | .feeding, s => s.flLocked = true ∧ optAtRest s
  | .flash, s => s.flLocked = false ∧ crcClean s ∧ optAtRest s
  | .optOpen, s => s.flLocked = true ∧ crcClean s ∧ optSettled s
  | .optCleared, s => s.flLocked = true ∧ crcClean s ∧ s.optctl.optlock = false ∧ optSettled s
  | .optWritten, s =>
    s.flLocked = true ∧ crcClean s ∧ s.optctl.optlock = false ∧ s.optctl.optstrt = false ∧ s.optBusy = false
  | .optLaunched, s =>
    s.flLocked = true ∧ crcClean s ∧ s.optctl.optlock = false ∧
      (s.optctl.optstrt = true ∧ s.optBusy = true ∨ optSettled s)
  | .optDone, s => s.flLocked = true ∧ crcClean s ∧ s.optctl.optlock = false ∧ optSettled s

/-- Where an entry of `STEP` may stand, and the stage after it: the bracket of R136, that of `FlashUnlock()` and
`FlashLock()` (R75), and the seven entries of R205 in their order. -/
def moves : Op → List (Stage × Stage)
  | .crcReset => [(.rest, .rest), (.feeding, .rest)]
  | .crcFeed _ | .crcValue => [(.rest, .feeding), (.feeding, .feeding)]
  | .flashUnlock => [(.rest, .flash)]
  | .flashLock => [(.flash, .rest)]
  | .eraseSector _ | .massErase | .programByte _ _ => [(.flash, .flash)]
  | .setStatus _ | .clearI => [(.rest, .rest), (.flash, .flash)]
  | .massStatus => [(.rest, .rest)]
  | .optUnlock => [(.rest, .optOpen)]
  | .waitOptIdle => [(.optOpen, .optOpen), (.optLaunched, .optDone)]
  | .optClearOptlock => [(.optOpen, .optCleared)]
  | .optWriteNwrp _ => [(.optCleared, .optWritten)]
  | .optSetOptstrt => [(.optWritten, .optLaunched)]
  | .optLock => [(.optDone, .rest)]
  | .leaveVerify | .enterRxLen | .enterDead => [(.rest, .ended)]
  | .tx _ | .txStatus | .txValue | .txIdLow | .txIdHigh | .txRead | .txNackIfBad => [(.rest, .rest)]
  | .busWrite _ _ | .busRead _ | .optReadNwrp | .obReadRdp | .dbgIdRead | .go _ => [(.rest, .rest)]
  | .setNsec _ | .judgeCrc => [(.rest, .rest)]

/-- The move from a stage, if there is one. -/
def follow (st : Stage) : List (Stage × Stage) → Option Stage
  | [] => none
  | m :: ms => if m.1 = st then some m.2 else follow st ms

/-- The stage after an entry; `none` where the entry has no place. -/
def Stage.next (st : Stage) (op : Op) : Option Stage := follow st (moves op)

/-- The stage after a list of entries. -/
def Stage.run : Stage → List Op → Option Stage
  | st, [] => some st
  | st, op :: ops => match st.next op with
    | some st' => st'.run ops
    | none => none

/-- The stages in which a phase may have nothing left to do. -/
def Stage.final (st : Stage) : Bool := decide (st = .rest) || decide (st = .ended)

/-- The list of entries leads from a stage to rest. -/
def Stage.settles (st : Stage) (ops : List Op) : Bool :=
  match st.run ops with
  | some st' => st'.final
  | none => false

/-- The entries of `STEP` that a phase has: those of RX_LEN after reset (R281), of VERIFY (R134 to R138), of EXEC (R139 to
R143). -/
def phasesOf : Op → List Phase
  | .crcReset => [.rxLen, .verify]
  | .crcFeed _ | .crcValue | .txNackIfBad | .judgeCrc | .leaveVerify => [.verify]
  | .tx _ | .enterRxLen => [.verify, .exec]
  | .txStatus | .txValue | .txIdLow | .txIdHigh | .txRead => [.exec]
  | .flashUnlock | .flashLock | .eraseSector _ | .massErase | .programByte _ _ | .busWrite _ _ | .busRead _ => [.exec]
  | .optUnlock | .optLock | .waitOptIdle | .optClearOptlock | .optWriteNwrp _ | .optSetOptstrt => [.exec]
  | .optReadNwrp | .obReadRdp | .dbgIdRead | .go _ | .enterDead => [.exec]
  | .setStatus _ | .massStatus | .clearI | .setNsec _ => [.exec]

/-- The entry is one of the phase's. -/
def fits (ph : Phase) (op : Op) : Bool := (phasesOf op).contains ph

/-- A state with its stage: memory in canonical form, the entries of `STEP` those of the phase, the devices as the stage
says, and the entries, run in order, leading back to rest. -/
def OrderlyAt (st : Stage) (s : State) : Prop :=
  s.mem.wf = true ∧ s.step.all (fits s.ph) = true ∧ atStage st s ∧ st.settles s.step = true

/-- A state the machine can be in under the environment contract (R37): at some stage. At rest the memory controller and
the option bytes are locked, nothing is pending, `OPTCTL.NWRP = OB_NWRP` and the accumulator is `CRC_INIT` (R137, R216,
R259). -/
def Orderly (s : State) : Prop := ∃ st : Stage, OrderlyAt st s

/-- The brackets open at a stage: the memory controller's between `FlashUnlock()` and `FlashLock()`, the option bytes'
between `OptUnlock()` and `OptLock()` (R75 (b)). -/
def Stage.brackets : Stage → Brackets
  | .rest | .feeding | .ended => Brackets.closed
  | .flash => { flash := true, option := false }
  | .optOpen | .optCleared | .optWritten | .optLaunched | .optDone => { flash := false, option := true }

/-- The receive phases keep their place in the frame: `IDX` counts the bytes stored, and `FB[0]` is `LEN` (R22, R23). -/
def FrameTracked (s : State) : Prop :=
  match s.ph with
  | .rxLen => True
  | .dead => True
  | .rxBody => 1 ≤ s.idx.toNat ∧ s.idx.toNat ≤ s.len.toNat ∧ s.fbAt 0 = s.len
  | .verify => s.idx.toNat = s.frameSize ∧ s.fbAt 0 = s.len
  | .exec => s.idx.toNat = s.frameSize ∧ s.fbAt 0 = s.len

end Machine

end Sys2Proof
end

