-- ==== Sys2Proof/Certificates/Slice0/Obligations.lean ====
section
/-! DEFINITION. The statements about the model, for the provers. `s.env.grant = none` says that the environment completes
every primitive the command calls (spec/70_reset_and_hazards.md R305); what a hold does is `HoldChangesNothing`. -/

open Sys2Proof Sys2Proof.Machine

/-! ## Encoding and decoding -/

/-- Frames written out byte by byte in spec/95_test_vectors.md stand for the commands named there (R90 to R112), and the
four raised kinds are told apart (R257). -/
def Obligations.SampleFramesDecode : Prop :=
  decode Config.refCfg [0x05, 0x51, 0xE7, 0xE9, 0xAB, 0x7C] = some (.ok .getVersion, []) ∧
  decode Config.refCfg [0x07, 0x56, 0x06, 0x05, 0xDC, 0x2E, 0x29, 0x3E] = some (.ok (.flashErase 0x06 0x05), []) ∧
  decode Config.refCfg [0x0C, 0x57, 0x00, 0x80, 0x00, 0x08, 0x02, 0xDE, 0xAD, 0x83, 0xC3, 0xEB, 0xDF]
    = some (.ok (.memWrite 0x08008000 [0xDE, 0xAD]), []) ∧
  decode Config.refCfg [0x07, 0x58, 0x05, 0x01, 0x98, 0x35, 0xF9, 0x5D]
    = some (.ok (.enableWriteProtect 0x05 0x01), []) ∧
  decode Config.refCfg [0x0A, 0x59, 0x00, 0x00, 0x00, 0x08, 0x04, 0xFE, 0x5A, 0x20, 0xF1]
    = some (.ok (.memRead 0x08000000 0x04), []) ∧
  decode Config.refCfg [0x09, 0x55, 0x00, 0x80, 0x00, 0x08, 0x91, 0x65, 0x19, 0x3F, 0x05]
    = some (.ok (.goToAddress 0x08008000), [0x05]) ∧
  decode Config.refCfg [0x08, 0x5B, 0x01, 0x02, 0x03, 0x8B, 0x60, 0xC8, 0x9F] = some (.ok .otpRead, []) ∧
  decode Config.refCfg [0x03, 0x51, 0x00, 0x00] = some (.error .malformedFrame, []) ∧
  decode Config.refCfg [0x05, 0x51, 0x00, 0x00, 0x00, 0x00] = some (.error .checksumMismatch, []) ∧
  decode Config.refCfg [0x05, 0x60, 0xC0, 0x99, 0x58, 0xAC] = some (.error .unsupportedOpcode, []) ∧
  decode Config.refCfg [0x07, 0x55, 0x00, 0x80, 0xDD, 0x0A, 0xCE, 0xE0] = some (.error .badPayloadLength, []) ∧
  decode Config.refCfg [0x07, 0x56, 0x06] = none

/-- Decoding the frame of a well-formed command gives the command back, under every configuration, for every operand
value, with any excess payload that fits, whatever follows in the stream (R90, R109, R114). -/
def Obligations.DecodeEncodeRoundTrip : Prop :=
  ∀ (c : Cfg) (i : Instr) (excess rest : List Byte), i.wf = true →
    (operandBytes i ++ excess).length ≤ 250 →
    decode c (encodeWith c i excess ++ rest) = some (.ok i, rest)

/-- The other direction: whatever the decoder reads from a frame stands there byte for byte, opcode at index 1 and
operands from index 2 on, and is well formed (R100 to R108). -/
def Obligations.DecodedCommandStandsInFrame : Prop :=
  ∀ (frame : List Byte) (i : Instr), frame.length ≤ 256 → decodeBody frame = .ok i →
    i.wf = true ∧ opcodeByte i = byteAt frame 1 ∧ operandBytes i <+: payloadOf frame

/-- The operands a handler is given are the operand latches of `FB` (R24). -/
def Obligations.OperandsAreTheLatches : Prop :=
  ∀ s : State, 5 ≤ s.len.toNat →
    (payloadOf s.frame).length = s.latchPlen ∧
    (∀ addr, decodeBody s.frame = .ok (.goToAddress addr) → addr = s.latchAddr) ∧
    (∀ sec cnt, decodeBody s.frame = .ok (.flashErase sec cnt) → sec = s.latchSec ∧ cnt = s.latchCnt) ∧
    (∀ addr data, decodeBody s.frame = .ok (.memWrite addr data) →
      addr = s.latchAddr ∧ data = s.latchData ∧ data.length = s.latchDlen.toNat) ∧
    (∀ mask flag, decodeBody s.frame = .ok (.enableWriteProtect mask flag) →
      mask = s.latchMask ∧ flag = s.latchFlag) ∧
    (∀ addr dlen, decodeBody s.frame = .ok (.memRead addr dlen) → addr = s.latchAddr ∧ dlen = s.latchDlen)

/-- The reference checksum unit detects the change of any single byte, whatever the start value (R12, R13). -/
def Obligations.ReferenceCrcDetectsOneByte : Prop :=
  ∀ c : Cfg, c.crcUnit = .reference → c.DetectsOneByte

/-- `verify` accepts exactly when the recomputed checksum equals the trailing four bytes, and a frame it accepts is
rejected once any single byte of the window, or of the four checksum bytes, is changed: under the reference unit, and
under any unit that has the property R12 asks for (R146). -/
def Obligations.CorruptedByteIsRejected : Prop :=
  ∀ (c : Cfg) (frame : List Byte), 4 ≤ frame.length →
    (verifies c frame = true ↔
      crcOf c (frame.take (frame.length - 4)) =
        le32 (byteAt frame (frame.length - 4)) (byteAt frame (frame.length - 3))
          (byteAt frame (frame.length - 2)) (byteAt frame (frame.length - 1))) ∧
    (c.crcUnit = .reference ∨ c.DetectsOneByte → verifies c frame = true →
      ∀ (k : Nat) (b : Byte), k < frame.length → byteAt frame k ≠ b → verifies c (frame.set k b) = false)

/-! ## Receiving -/

/-- Phase RX_LEN (R131): it holds until the host supplies a byte, and any byte is taken as the length. -/
def Obligations.LengthByteIsTaken : Prop :=
  ∀ s : State, s.rstN = true → s.ph = .rxLen → s.step = [] →
    (s.rxq = [] → step s = .next s) ∧
    (∀ (b : Byte) (rest : List Byte), s.env.grant = none → s.rxq = b :: rest →
      step s = .next
        { s with
          fb := s.fb.setIfInBounds 0 b
          len := b
          idx := 1#9
          ph := if b = 0#8 then .verify else .rxBody
          rxq := rest
          trace := s.trace ++ [.rx b] })

/-- Phase RX_BODY (R132): it holds until the host supplies a byte, and exactly the bytes still missing are taken, whatever
their values; nothing else changes. -/
def Obligations.FrameBodyIsTaken : Prop :=
  ∀ s : State, s.rstN = true → s.ph = .rxBody →
    (s.idx.toNat < s.frameSize → s.rxq = [] → step s = .next s) ∧
    (∀ bs rest : List Byte, s.env.grant = none →
      bs ≠ [] → s.idx.toNat + bs.length = s.frameSize → s.rxq = bs ++ rest →
      steps bs.length s = .next
        { s with
          fb := storeBytes s.fb s.idx.toNat bs
          idx := BitVec.ofNat 9 s.frameSize
          ph := .verify
          rxq := rest
          trace := s.trace ++ bs.map .rx })

/-! ## Verifying -/

/-- The framing check (R134): the block transmits `7F` and touches nothing else. -/
def Obligations.MalformedFrameGetsNack : Prop :=
  ∀ s : State, s.rstN = true → s.ph = .verify → s.step = [] → s.env.grant = none →
    s.fbAt 0 = s.len → s.len.toNat ≤ 4 →
    step s = .next (answered s [0x7F] [.tx 0x7F])

/-- The checksum check (R136, R138): `FB[0 .. N-5]` is fed in order, the accumulator is reset on both outcomes, all 32 bits
are compared, and a mismatch transmits `7F` and does nothing more. -/
def Obligations.VerdictIsTheChecksum : Prop :=
  ∀ s : State, s.rstN = true → s.ph = .verify → s.step = [] → s.env.grant = none →
    s.fbAt 0 = s.len → 5 ≤ s.len.toNat → s.crcAcc = s.cfg.crcInit →
    let window := s.fb.toList.take (s.len.toNat - 3)
    let value := crcOf s.cfg window
    let host := le32 (s.fbAt (s.len.toNat - 3)) (s.fbAt (s.len.toNat - 2)) (s.fbAt (s.len.toNat - 1)) (s.fbAt s.len.toNat)
    let checked : State :=
      { s with
        v := value
        trace := s.trace ++ window.map .crcFeed ++ [.crcRead value, .crcReset] }
    (value = host → step s = .next { checked with crcOk := true, ph := .exec }) ∧
    (value ≠ host → step s = .next (answered { checked with crcOk := false } [0x7F] [.tx 0x7F]))

/-! ## Dispatching -/

/-- A step in phase EXEC is the meaning of the command the frame in `FB` decodes to (R140). -/
def Obligations.StepRunsDecodedCommand : Prop :=
  ∀ (s : State) (i : Instr), s.rstN = true → s.ph = .exec → s.step = [] → decodeBody s.frame = .ok i →
    step s = exec i s

/-- Sent to a block at rest, the frame of any well-formed command is received, verified and then run: `N` steps take its
bytes, one verifies, and the next is the command's meaning, with nothing else changed on the way (R130 to R140). -/
def Obligations.SentCommandIsRun : Prop :=
  ∀ (s : State) (i : Instr) (excess rest : List Byte), i.wf = true → (operandBytes i ++ excess).length ≤ 250 →
    s.rstN = true → s.ph = .rxLen → s.step = [] → s.env.grant = none → s.crcAcc = s.cfg.crcInit →
    s.rxq = encodeWith s.cfg i excess ++ rest →
    ∃ t : State,
      steps ((encodeWith s.cfg i excess).length + 1) s = .next t ∧
      t.ph = .exec ∧ step t = exec i t ∧
      t = { s with
            ph := .exec, fb := t.fb, len := t.len, idx := t.idx, v := t.v, crcOk := true, rxq := rest,
            trace := t.trace } ∧
      t.frame = encodeWith s.cfg i excess

/-- A verified frame whose opcode is none of the twelve gets `A5 01 ST_UNSUPPORTED` and has no effect (R139). -/
def Obligations.UnassignedOpcodeIsReported : Prop :=
  ∀ s : State, s.rstN = true → s.ph = .exec → s.step = [] → s.env.grant = none → 5 ≤ s.len.toNat →
    s.latchOpc ∉ Config.opcodeValues →
    step s = .next
      (answered s [0xA5, 0x01, s.cfg.stUnsupported] (txs [0xA5, 0x01, s.cfg.stUnsupported]))

/-- The payload-length check (R140, R108): a payload shorter than the opcode's operands gets `A5 01 ST_BAD_LENGTH` and has
no effect; otherwise the handler of the opcode runs. -/
def Obligations.PayloadLengthDecides : Prop :=
  ∀ s : State, s.rstN = true → s.ph = .exec → s.step = [] → 5 ≤ s.len.toNat →
    s.latchOpc ∈ Config.opcodeValues →
    let short : Prop :=
      (s.latchOpc = 0x55#8 ∧ s.latchPlen < 4) ∨
      ((s.latchOpc = 0x56#8 ∨ s.latchOpc = 0x58#8) ∧ s.latchPlen < 2) ∨
      (s.latchOpc = 0x59#8 ∧ s.latchPlen < 5) ∨
      (s.latchOpc = 0x57#8 ∧ (s.latchPlen < 5 ∨ s.latchPlen < 5 + s.latchDlen.toNat))
    (short → s.env.grant = none →
      step s = .next
        (answered s [0xA5, 0x01, s.cfg.stBadLength] (txs [0xA5, 0x01, s.cfg.stBadLength]))) ∧
    (¬ short → ∃ i : Instr, opcodeByte i = s.latchOpc ∧ step s = exec i s)

/-! ## The device-info register file -/

/-- GetVersion (R225) and OtpRead (R231): the version byte, the stub byte, and no other effect. -/
def Obligations.VersionAndStubAreAnswered : Prop :=
  ∀ s : State, s.env.grant = none →
    exec .getVersion s = .next (answered s [0xA5, 0x01, s.cfg.blVersion] (txs [0xA5, 0x01, s.cfg.blVersion])) ∧
    exec .otpRead s = .next (answered s [0xA5, 0x01, s.cfg.otpStub] (txs [0xA5, 0x01, s.cfg.otpStub]))

/-- GetHelp (R226, R11): the list of the twelve opcodes in ascending order, its length before it. -/
def Obligations.GetHelpAnswers : Prop :=
  ∀ s : State, s.cfg.valid = true → s.env.grant = none →
    exec .getHelp s = .next (answered s (0xA5 :: 0x0C :: s.cfg.helpList) (txs (0xA5 :: 0x0C :: s.cfg.helpList))) ∧
    s.cfg.helpList = [0x51, 0x52, 0x53, 0x54, 0x55, 0x56, 0x57, 0x58, 0x59, 0x5A, 0x5B, 0x5C] ∧
    s.cfg.helpList.length = 12 ∧ s.cfg.helpList.Nodup ∧ ∀ b ∈ s.cfg.helpList, (opcodeOf b).isSome = true

/-- GetChipId (R227, R228): the low half of the debug-ID field under the mask, low byte first. -/
def Obligations.GetChipIdAnswers : Prop :=
  ∀ s : State, s.env.grant = none →
    let id : BitVec 16 := s.dbgId.extractLsb' 0 16 &&& s.cfg.chipIdMask
    exec .getChipId s = .next
      { answered s [0xA5, 0x02, id.extractLsb' 0 8, id.extractLsb' 8 8]
          [.tx 0xA5, .tx 0x02, .dbgIdRead s.dbgId, .tx (id.extractLsb' 0 8), .tx (id.extractLsb' 8 8)] with
        v := s.dbgId }

/-- GetReadoutProtectionStatus (R229, R230): the byte itself. -/
def Obligations.GetReadoutProtectionStatusAnswers : Prop :=
  ∀ s : State, s.env.grant = none →
    exec .getReadoutProtectionStatus s = .next
      { answered s [0xA5, 0x01, s.obRdp] [.tx 0xA5, .tx 0x01, .obRdpRead s.obRdp, .tx s.obRdp] with
        v := s.obRdp.setWidth 32 }

/-- ReadSectorStatus (R215): the raw byte of `OPTCTL.NWRP`, not complemented. -/
def Obligations.ReadSectorStatusAnswers : Prop :=
  ∀ s : State, s.env.grant = none →
    exec .readSectorStatus s = .next
      { answered s [0xA5, 0x01, s.optctl.nwrp]
          [.tx 0xA5, .tx 0x01, .optctlNwrpRead s.optctl.nwrp, .tx s.optctl.nwrp] with
        v := s.optctl.nwrp.setWidth 32 }

/-! ## The address classifier and the execution transfer -/

/-- The classifier against the two ranges over the integers, at both ends of each (R160, R161). -/
def Obligations.ClassifierIsTheTwoRanges : Prop :=
  ∀ (c : Cfg) (a : Word), c.valid = true →
    (classify c a = .programMemory ↔ c.flashBase.toNat ≤ a.toNat ∧ a.toNat ≤ c.flashEnd.toNat) ∧
    (classify c a = .volatileMemory ↔ c.sramBase.toNat ≤ a.toNat ∧ a.toNat < c.sramBase.toNat + 0x20000) ∧
    (classify c a = .invalid ↔
      ¬ (c.flashBase.toNat ≤ a.toNat ∧ a.toNat ≤ c.flashEnd.toNat) ∧
      ¬ (c.sramBase.toNat ≤ a.toNat ∧ a.toNat < c.sramBase.toNat + 0x20000))

/-- GoToAddress (R240, R241, R242, R243): an address in either region gets the validity byte, then the hand-over to the
address plus one modulo `2^32`, then DEAD; any other address gets the invalidity byte and no hand-over. -/
def Obligations.GoToAddressTransfers : Prop :=
  ∀ (s : State) (addr : Word), s.env.grant = none →
    (classify s.cfg addr ≠ .invalid →
      exec (.goToAddress addr) s = .next
        { s with
          ph := .dead
          step := []
          txq := s.txq ++ [0xA5, 0x01, s.cfg.addrValid]
          trace := s.trace ++
            [.tx 0xA5, .tx 0x01, .tx s.cfg.addrValid, .go (BitVec.ofNat 32 (addr.toNat + 1))] }) ∧
    (classify s.cfg addr = .invalid →
      exec (.goToAddress addr) s = .next
        (answered s [0xA5, 0x01, s.cfg.addrInvalid] (txs [0xA5, 0x01, s.cfg.addrInvalid])))

/-- DEAD is left by reset alone, and in it nothing moves (R26, R244). -/
def Obligations.DeadUntilReset : Prop :=
  ∀ s : State, s.ph = .dead →
    (s.rstN = true → step s = .next s) ∧
    (s.rstN = false → ∃ t, step s = .next t ∧ t.ph = .rxLen)

/-! ## FlashErase -/

/-- Out of range (R171): no call on the memory controller, status `ST_OUT_OF_RANGE`. -/
def Obligations.EraseOutOfRangeTouchesNothing : Prop :=
  ∀ (s : State) (sec cnt : Byte), s.cfg.valid = true → s.env.grant = none → cnt ≠ 0xFF#8 →
    (s.cfg.maxSectors.toNat < cnt.toNat ∨ s.cfg.maxSectors.toNat ≤ sec.toNat) →
    exec (.flashErase sec cnt) s = .next
      { answered s [0xA5, 0x01, s.cfg.stOutOfRange] (txs [0xA5, 0x01, s.cfg.stOutOfRange]) with
        status := s.cfg.stOutOfRange }

/-- Mass erase (R173): one primitive inside the bracket, whatever the start sector. That only program memory changes is the
model's choice (log entry 10). -/
def Obligations.MassEraseIsOnePrimitive : Prop :=
  ∀ (s : State) (sec : Byte), s.env.grant = none →
    let r := s.env.nextFl
    let st : Byte := if r = .pass then 0x00 else s.cfg.stHwFail
    exec (.flashErase sec 0xFF) s = .next
      { answered s [0xA5, 0x01, st] [.tx 0xA5, .tx 0x01, .flUnlock, .flMass r, .flLock, .tx st] with
        status := st
        r := r
        flLocked := true
        mem := s.mem.forgetAll (inProgram s.cfg)
        env := s.env.takeFl }

/-- A sector range whose primitives all pass (R174): exactly the clamped range, ascending, one call each. -/
def Obligations.EraseRunsTheClampedRange : Prop :=
  ∀ (s : State) (sec cnt : Byte) (rest : List FlResult), s.cfg.valid = true → s.env.grant = none →
    cnt.toNat ≤ s.cfg.maxSectors.toNat → sec.toNat < s.cfg.maxSectors.toNat →
    let n := min cnt.toNat (s.cfg.maxSectors.toNat - sec.toNat)
    s.env.flDraws = List.replicate n .pass ++ rest →
    exec (.flashErase sec cnt) s = .next
      { answered s [0xA5, 0x01, 0x00]
          (.tx 0xA5 :: .tx 0x01 :: .flUnlock ::
            (eraseEvents sec (List.replicate n .pass) ++ [Event.flLock, Event.tx 0x00])) with
        status := 0x00
        i := BitVec.ofNat 9 n
        nsec := BitVec.ofNat 8 n
        flLocked := true
        mem := if n = 0 then s.mem else s.mem.forgetAll (inProgram s.cfg)
        env := { s.env with flDraws := rest } }

/-- A failing sector (R175): no further erase primitive, the lock, status `ST_HW_FAIL`. -/
def Obligations.EraseStopsAtTheFirstFailure : Prop :=
  ∀ (s : State) (sec cnt : Byte) (k : Nat) (rest : List FlResult), s.cfg.valid = true → s.env.grant = none →
    cnt.toNat ≤ s.cfg.maxSectors.toNat → sec.toNat < s.cfg.maxSectors.toNat →
    k < min cnt.toNat (s.cfg.maxSectors.toNat - sec.toNat) →
    s.env.flDraws = List.replicate k .pass ++ .fail :: rest →
    exec (.flashErase sec cnt) s = .next
      { answered s [0xA5, 0x01, s.cfg.stHwFail]
          (.tx 0xA5 :: .tx 0x01 :: .flUnlock ::
            (eraseEvents sec (List.replicate k FlResult.pass ++ [FlResult.fail]) ++
              [Event.flLock, Event.tx s.cfg.stHwFail])) with
        status := s.cfg.stHwFail
        i := BitVec.ofNat 9 (k + 1)
        nsec := BitVec.ofNat 8 (min cnt.toNat (s.cfg.maxSectors.toNat - sec.toNat))
        flLocked := true
        mem := s.mem.forgetAll (inProgram s.cfg)
        env := { s.env with flDraws := rest } }

/-- Every erased sector exists (R174: "`SEC + I <= MAX_SECTORS - 1`"), whatever the draws and the holds. -/
def Obligations.ErasedSectorsExist : Prop :=
  ∀ (s t : State) (i : Instr), s.cfg.valid = true → exec i s = .next t →
    ∃ es : List Event, t.trace = s.trace ++ es ∧
      ∀ (x : Byte) (r : FlResult), Event.flErase x r ∈ es → x.toNat < s.cfg.maxSectors.toNat

/-! ## MemWrite and MemRead -/

/-- MemWrite to an invalid address (R187): status `0x01`, nothing written. -/
def Obligations.WriteToInvalidAddressWritesNothing : Prop :=
  ∀ (s : State) (addr : Word) (data : List Byte), s.env.grant = none → classify s.cfg addr = .invalid →
    exec (.memWrite addr data) s = .next
      { answered s [0xA5, 0x01, 0x01] (txs [0xA5, 0x01, 0x01]) with status := 0x01 }

/-- MemWrite to program memory (R188, R189): every byte is attempted, in ascending order, inside the bracket, whatever
failed before; the status is `ST_OK` exactly when all passed. What MEM holds afterwards is the model's choice (log
entry 10). -/
def Obligations.ProgramWriteAttemptsEveryByte : Prop :=
  ∀ (s : State) (addr : Word) (data : List Byte) (rs rest : List FlResult), s.env.grant = none →
    (Instr.memWrite addr data).wf = true → classify s.cfg addr = .programMemory →
    rs.length = data.length → s.env.flDraws = rs ++ rest →
    let st : Byte := if .fail ∈ rs then s.cfg.stHwFail else 0x00
    exec (.memWrite addr data) s = .next
      { answered s [0xA5, 0x01, st]
          (.tx 0xA5 :: .tx 0x01 :: .flUnlock :: (programEvents addr (data.zip rs) ++ [Event.flLock, Event.tx st])) with
        status := st
        i := BitVec.ofNat 9 data.length
        flLocked := true
        mem := programmed s.cfg s.env.memKeeps addr (data.zip rs) s.mem
        env := { s.env with flDraws := rest } }

/-- MemWrite to volatile memory (R190): one bus write per byte, ascending, no call on the memory controller. What MEM holds
afterwards is the model's choice (log entry 10). -/
def Obligations.VolatileWriteCopiesEveryByte : Prop :=
  ∀ (s : State) (addr : Word) (data : List Byte), s.env.grant = none →
    (Instr.memWrite addr data).wf = true → classify s.cfg addr = .volatileMemory →
    exec (.memWrite addr data) s = .next
      { answered s [0xA5, 0x01, 0x00]
          (.tx 0xA5 :: .tx 0x01 :: (busWriteEvents addr data ++ [Event.tx 0x00])) with
        status := 0x00
        i := BitVec.ofNat 9 data.length
        mem := busWritten s.cfg s.env.memKeeps addr data s.mem }

/-- Under the assumption that memories hold what is written to them (log entry 10, session P2), the bytes of a MemWrite
that stays in volatile memory are there afterwards. -/
def Obligations.WrittenBytesReadBack : Prop :=
  ∀ (s t : State) (addr : Word) (data : List Byte), s.env.grant = none → s.env.memKeeps = true →
    (Instr.memWrite addr data).wf = true → s.cfg.valid = true → classify s.cfg addr = .volatileMemory →
    (∀ k, k < data.length → inVolatile s.cfg (addr + BitVec.ofNat 32 k) = true) →
    exec (.memWrite addr data) s = .next t →
    ∀ k, k < data.length → t.mem.read? (addr + BitVec.ofNat 32 k).toNat = data[k]?

/-- MemRead (R195, R196, R197): any address; the reply is `DLEN` and that many bytes, read and transmitted in turn; a byte
whose contents are known is that byte, and bytes that are not known are whatever the bus returns (log entry 6). That a
known byte is the byte returned, and that a read changes nothing else, is the model's choice (log entry 10): R66 lets a
read of a device have side effects. -/
def Obligations.MemReadReturnsTheBytes : Prop :=
  ∀ (s : State) (addr : Word) (dlen : Byte), s.env.grant = none →
    ∃ (vals : List Byte) (w : Word) (e : Env),
      exec (.memRead addr dlen) s = .next
        { answered s (0xA5 :: dlen :: vals) (.tx 0xA5 :: .tx dlen :: readEvents addr vals) with
          i := BitVec.ofNat 9 dlen.toNat
          v := w
          env := e } ∧
      vals.length = dlen.toNat ∧
      (∀ (k : Nat) (b : Byte), k < dlen.toNat →
        s.mem.read? (addr + BitVec.ofNat 32 k).toNat = some b → vals[k]? = some b) ∧
      ((∀ k, k < dlen.toNat → s.mem.read? (addr + BitVec.ofNat 32 k).toNat = none) →
        ∀ bs rest, bs.length = dlen.toNat → s.env.rdDraws = bs ++ rest → vals = bs)

/-! ## Write protection -/

/-- EnableWriteProtect with the flag set, on an idle controller that completes the launch (R207, R208, R212). -/
def Obligations.EnableStoresTheComplement : Prop :=
  ∀ (s : State) (mask : Byte), s.env.grant = none → s.optBusy = false → launchCompletes s = true →
    exec (.enableWriteProtect mask 0x01) s = .next
      { answered s [0xA5, 0x01, 0x00]
          [.tx 0xA5, .tx 0x01, .optUnlock, .optWait, .optctlOptlock0, .optctlNwrp (mask ^^^ 0xFF#8), .optctlOptstrt1,
            .envOptComplete, .optWait, .optLock, .tx 0x00] with
        status := 0x00
        optctl := { optlock := true, optstrt := false, nwrp := mask ^^^ 0xFF#8 }
        obNwrp := mask ^^^ 0xFF#8
        env := envAfterLaunch s }

/-- EnableWriteProtect with the flag not set (R206): `A5 00` and nothing else, for every flag but `0x01`. -/
def Obligations.EnableWithoutFlagDoesNothing : Prop :=
  ∀ (s : State) (mask flag : Byte), s.env.grant = none → flag ≠ 0x01#8 →
    exec (.enableWriteProtect mask flag) s = .next (answered s [0xA5, 0x00] (txs [0xA5, 0x00]))

/-- DisableWriteProtect (R209): the same ceremony with all ones. -/
def Obligations.DisableStoresAllOnes : Prop :=
  ∀ s : State, s.env.grant = none → s.optBusy = false → launchCompletes s = true →
    exec .disableWriteProtect s = .next
      { answered s [0xA5, 0x01, 0x00]
          [.tx 0xA5, .tx 0x01, .optUnlock, .optWait, .optctlOptlock0, .optctlNwrp 0xFF, .optctlOptstrt1,
            .envOptComplete, .optWait, .optLock, .tx 0x00] with
        status := 0x00
        optctl := { optlock := true, optstrt := false, nwrp := 0xFF }
        obNwrp := 0xFF
        env := envAfterLaunch s }

/-- A launch that the controller does not complete when the block waits for it (R211): the host has `A5 01`, the block holds
in phase EXEC with the option bytes unlocked, and the persistent mask is unchanged; a further step in which the controller
still does not complete it leaves the block where it is, and one in which it does ends the command (R212). What the
controller does, `OPT_BUSY` and `OB_NWRP` included, is presumed as R37 says from general knowledge (log entry 7). -/
def Obligations.UncompletedLaunchHolds : Prop :=
  ∀ (s t : State) (i : Instr),
    ((∃ mask, i = .enableWriteProtect mask 0x01) ∨ i = .disableWriteProtect) →
    s.rstN = true → s.env.grant = none → s.optBusy = false → launchCompletes s = false → exec i s = .next t →
    t.ph = .exec ∧ t.step ≠ [] ∧ t.txq = s.txq ++ [0xA5, 0x01] ∧ t.optctl.optlock = false ∧ t.optctl.optstrt = true ∧
      t.optBusy = true ∧ t.obNwrp = s.obNwrp ∧ t.rxReady = false ∧
      (∀ mask, i = .enableWriteProtect mask 0x01 → t.optctl.nwrp = mask ^^^ 0xFF#8) ∧
      (i = .disableWriteProtect → t.optctl.nwrp = 0xFF#8) ∧
      (t.env.nextOpt = false → step t = .next (takeOpt t)) ∧
      (t.env.nextOpt = true →
        step t = .next
          { answered t [0x00] [.envOptComplete, .optWait, .optLock, .tx 0x00] with
            status := 0x00
            optctl := { optlock := true, optstrt := false, nwrp := t.optctl.nwrp }
            optBusy := false
            obNwrp := t.optctl.nwrp
            env := t.env.takeOpt })

/-- After a completed EnableWriteProtect, ReadSectorStatus answers the complement of the mask (R208, R212, R216). -/
def Obligations.EnabledMaskReadsBack : Prop :=
  ∀ (s t u : State) (mask : Byte), s.env.grant = none → s.optBusy = false →
    exec (.enableWriteProtect mask 0x01) s = .next t → t.ph = .rxLen → exec .readSectorStatus t = .next u →
    u.txq = s.txq ++ [0xA5, 0x01, 0x00, 0xA5, 0x01, ~~~mask] ∧ u.obNwrp = ~~~mask

/-! ## Frames: what a command leaves unchanged, whatever the environment draws and wherever it holds -/

/-- GetVersion, GetHelp, OtpRead, GoToAddress: only the sequencer position, the transmitted bytes, the trace and the count
of completed primitives may change. Nothing is stored: every byte of memory is unchanged (R67, R225, R240). -/
def Obligations.ConstantQueriesAndTransferFrame : Prop :=
  ∀ (s t : State) (i : Instr),
    (i = .getVersion ∨ i = .getHelp ∨ i = .otpRead ∨ ∃ addr, i = .goToAddress addr) → exec i s = .next t →
    t = { s with
          ph := t.ph, step := t.step, txq := t.txq, trace := t.trace,
          env := { s.env with grant := t.env.grant } }

/-- GetChipId, GetReadoutProtectionStatus, ReadSectorStatus: besides that, only the local value `v` of the pseudocode, part
of `STEP`, may change; MemRead: `I` and the environment's reads too (R67, R195, R215, R227, R229). That a MemRead changes no
byte of memory and no device is the model's choice (log entry 10): R66 lets a read of a device have side effects. -/
def Obligations.ReadingQueriesFrame : Prop :=
  ∀ (s t : State) (i : Instr), exec i s = .next t →
    ((i = .getChipId ∨ i = .getReadoutProtectionStatus ∨ i = .readSectorStatus) →
      t = { s with
            ph := t.ph, step := t.step, v := t.v, txq := t.txq, trace := t.trace,
            env := { s.env with grant := t.env.grant } }) ∧
    (∀ addr dlen, i = .memRead addr dlen →
      t = { s with
            ph := t.ph, step := t.step, v := t.v, i := t.i, txq := t.txq, trace := t.trace,
            env := { s.env with grant := t.env.grant, rdDraws := t.env.rdDraws, draws := t.env.draws } })

/-- FlashErase: STATUS, I, NSEC, the local result `r`, the flash lock and bytes of program memory may change; every other byte of memory and
every other register are unchanged; on an out-of-range request the lock, I, NSEC, `r` and all of memory are
unchanged too (R170, R171). -/
def Obligations.FlashEraseFrame : Prop :=
  ∀ (s t : State) (sec cnt : Byte), exec (.flashErase sec cnt) s = .next t →
    t = { s with
          ph := t.ph, step := t.step, r := t.r, status := t.status, i := t.i, nsec := t.nsec, flLocked := t.flLocked,
          mem := t.mem, txq := t.txq, trace := t.trace,
          env := { s.env with grant := t.env.grant, flDraws := t.env.flDraws, draws := t.env.draws } } ∧
    (∀ n : Nat, inProgram s.cfg (BitVec.ofNat 32 n) = false → t.mem.read? n = s.mem.read? n) ∧
    (eraseOutOfRange s.cfg sec cnt = true →
      t.flLocked = s.flLocked ∧ t.i = s.i ∧ t.nsec = s.nsec ∧ t.r = s.r ∧ t.mem = s.mem)

/-- MemWrite: STATUS, I, the flash lock and the bytes stored to may change; the bytes stored to are those at `turnAddr addr`
of the turns of its loop; for an invalid address I and all of memory are unchanged, and off the program-memory path the
lock is unchanged (R185, R187, R190). -/
def Obligations.MemWriteFrame : Prop :=
  ∀ (s t : State) (addr : Word) (data : List Byte), exec (.memWrite addr data) s = .next t →
    t = { s with
          ph := t.ph, step := t.step, status := t.status, i := t.i, flLocked := t.flLocked,
          mem := t.mem, txq := t.txq, trace := t.trace,
          env := { s.env with grant := t.env.grant, flDraws := t.env.flDraws, draws := t.env.draws } } ∧
    (∀ n : Nat, (∀ k, k < data.length → n ≠ (turnAddr addr (BitVec.ofNat 9 k)).toNat) →
      t.mem.read? n = s.mem.read? n) ∧
    (classify s.cfg addr = .invalid → t.i = s.i ∧ t.mem = s.mem) ∧
    (classify s.cfg addr ≠ .programMemory → t.flLocked = s.flLocked)

/-- EnableWriteProtect, DisableWriteProtect: STATUS, `OPTCTL`, `OPT_BUSY` and `OB_NWRP` may change; nothing else, and
nothing in memory (R205, R207, R209). -/
def Obligations.ProtectionUpdateFrame : Prop :=
  ∀ (s t : State) (i : Instr),
    ((∃ mask flag, i = .enableWriteProtect mask flag) ∨ i = .disableWriteProtect) → exec i s = .next t →
    t = { s with
          ph := t.ph, step := t.step, status := t.status, optctl := t.optctl, optBusy := t.optBusy,
          obNwrp := t.obNwrp, txq := t.txq, trace := t.trace,
          env := { s.env with grant := t.env.grant, optDraws := t.env.optDraws, draws := t.env.draws } }

/-! ## The whole machine -/

/-- Every step keeps the memory's canonical form (R42; the form is the model's). -/
def Obligations.MemoryStaysCanonical : Prop :=
  ∀ s t : State, s.mem.wf = true → step s = .next t → t.mem.wf = true

/-- Every step keeps an orderly state orderly: wherever the sequencer stands or holds, the devices are as its position says,
and what is left to do leads back to rest (R137, R172, R205, R216, R259), under the contract of R37 for the option-byte
controller (log entry 7); that a reset inside a bracket locks the memory controller and reloads `OPTCTL` is presumed as the
environment rows of R45, R282 say (log entry 16). -/
def Obligations.StepKeepsOrderly : Prop :=
  ∀ s t : State, Orderly s → step s = .next t → Orderly t

/-- The state right after reset is orderly, keeps its place in the frame, and has an empty memory in canonical form
(R45). -/
def Obligations.ResetIsOrderly : Prop :=
  Orderly State.reset ∧ FrameTracked State.reset ∧ State.reset.mem.wf = true

/-- With nothing left to do, so whenever a frame is awaited, received or about to be tested, everything is locked and idle,
the accumulator is `CRC_INIT`, and `OPTCTL.NWRP` is the persistent mask (R137, R216, R259). -/
def Obligations.IdleIsLocked : Prop :=
  ∀ s : State, Orderly s → s.step = [] →
    s.crcAcc = s.cfg.crcInit ∧ s.flLocked = true ∧ s.optctl.optlock = true ∧ s.optctl.optstrt = false ∧
      s.optBusy = false ∧ s.optctl.nwrp = s.obNwrp

/-- `IDX` counts the bytes of the frame and `FB[0]` is `LEN`, in every phase of every step (R22, R23). -/
def Obligations.StepKeepsFrameTracked : Prop :=
  ∀ s t : State, Orderly s → FrameTracked s → step s = .next t → FrameTracked t

/-- The phases leave to the phases of the table of R26 and to no other; a hold stays. -/
def Obligations.PhasesFollowTheTable : Prop :=
  ∀ s t : State, Orderly s → s.rstN = true → step s = .next t →
    match s.ph with
    | .rxLen => t.ph = .rxLen ∨ t.ph = .rxBody ∨ t.ph = .verify
    | .rxBody => t.ph = .rxBody ∨ t.ph = .verify
    | .verify => t.ph = .verify ∨ t.ph = .exec ∨ t.ph = .rxLen
    | .exec => t.ph = .exec ∨ t.ph = .rxLen ∨ t.ph = .dead
    | .dead => t.ph = .dead

/-- Every erase and program primitive lies between an unlock and the next lock, and every write of an `OPTCTL` field between
`OptUnlock` and `OptLock`, in every command, wherever it holds (R75). -/
def Obligations.EveryMutationIsBracketed : Prop :=
  ∀ (s t : State) (i : Instr), exec i s = .next t →
    ∃ es : List Event, t.trace = s.trace ++ es ∧ (Brackets.closed.scan es).isSome = true ∧
      (t.step = [] → Brackets.closed.scan es = some Brackets.closed)

/-- Exactly one response per verified frame, with an exact reply length (R95, R96, R142): when phase EXEC has nothing left
to do, it has transmitted `A5`, a length and exactly that many bytes. -/
def Obligations.ExactlyOneResponse : Prop :=
  ∀ s t : State, s.cfg.valid = true → s.rstN = true → s.ph = .exec → s.step = [] → step s = .next t → t.step = [] →
    ∃ payload : List Byte, payload.length ≤ 255 ∧
      t.txq = s.txq ++ 0xA5 :: BitVec.ofNat 8 payload.length :: payload

/-- The Ack header comes first (R141): the first two events of every command are `tx(A5)` and the reply length of R97, as far
as the command has come. -/
def Obligations.AckHeaderComesFirst : Prop :=
  ∀ (s t : State) (i : Instr), exec i s = .next t →
    ∃ es : List Event, t.trace = s.trace ++ es ∧ es.take 2 <+: [.tx 0xA5, .tx (replyLength s.cfg i)]

/-- The configuration, the debug-ID field and the readout-protection byte never change, reset included (R8, R39, R40). -/
def Obligations.ConstantsNeverChange : Prop :=
  ∀ s t : State, step s = .next t → t.cfg = s.cfg ∧ t.dbgId = s.dbgId ∧ t.obRdp = s.obRdp

/-- The frame buffer, `LEN`, `IDX` and the receive stream are touched in the receive phases alone (R20, R43). -/
def Obligations.FrameIsWrittenByReceptionAlone : Prop :=
  ∀ s t : State, s.rstN = true → step s = .next t → s.ph ≠ .rxLen → s.ph ≠ .rxBody →
    t.fb = s.fb ∧ t.len = s.len ∧ t.idx = s.idx ∧ t.rxq = s.rxq

/-- What has been transmitted stays transmitted, and the trace only grows (R44). -/
def Obligations.TransmitStreamOnlyGrows : Prop :=
  ∀ s t : State, s.rstN = true → step s = .next t → s.txq <+: t.txq ∧ s.trace <+: t.trace

/-- The persistent mask changes only by the environment's `opt_complete` (R38). -/
def Obligations.MaskChangesOnlyByCompletion : Prop :=
  ∀ s t : State, s.rstN = true → step s = .next t → t.obNwrp ≠ s.obNwrp →
    ∃ es : List Event, t.trace = s.trace ++ es ∧ Event.envOptComplete ∈ es

/-- A hold changes nothing (R17): whichever primitive the environment holds a command in, once it lets the rest complete
the command ends in the state it would have reached without the hold. -/
def Obligations.HoldChangesNothing : Prop :=
  ∀ (s t h : State) (i : Instr) (k : Nat), s.env.grant = none → exec i s = .next t → t.step = [] →
    exec i (setGrant (some k) s) = .next h → resume (setGrant none h) = t

/-- A hold moves nothing in the block and no timeout lifts it (R17, R133, R255): in the receive phases while the host
supplies no byte or the exchange is held, and in VERIFY and EXEC while the environment holds the primitive that is due. The
one thing that can happen meanwhile is the environment's: at a held wait it may complete the launch (R37 (b); log
entry 7). -/
def Obligations.HeldBlockStaysWhereItIs : Prop :=
  ∀ s : State, s.rstN = true →
    (s.step = [] → s.rxq = [] ∨ s.env.grant = some 0 →
      (s.ph = .rxLen ∨ s.ph = .rxBody ∧ s.idx.toNat < s.frameSize) → step s = .next s) ∧
    (∀ (op : Op) (ops : List Op), s.env.grant = some 0 → (s.ph = .verify ∨ s.ph = .exec) → s.step = op :: ops →
      callsNothing op s = false →
      (op ≠ .waitOptIdle ∨ s.optBusy = false → step s = .next s) ∧
      (op = .waitOptIdle → s.optBusy = true → s.env.nextOpt = false → step s = .next (takeOpt s)) ∧
      (op = .waitOptIdle → s.optBusy = true → s.env.nextOpt = true →
        step s = .next
          { s with
            optctl := { s.optctl with optstrt := false }
            optBusy := false
            obNwrp := s.optctl.nwrp
            trace := s.trace ++ [.envOptComplete]
            env := s.env.takeOpt }))

/-! ## Reset -/

/-- Reset (R45, R280, R282), in any phase and at any position: the values R45 states for the block; those of the environment
are presumed (log entry 16). Every output is inactive and nothing is transmitted; the persistent bytes stay, the mask unless
a launch was pending (log entry 9). That every byte of memory stays which no primitive in progress can reach, volatile memory
included, is the model's choice (log entry 20): R282 read beside R45, whose MEM row leaves volatile memory unspecified. A
power cycle is the same reset, with program memory alone kept (R266, R283), and is the model's act `powerUp` (log
entry 20). -/
def Obligations.ResetValues : Prop :=
  ∀ s : State,
    (s.rstN = false →
      ∃ t, step s = .next t ∧ t.ph = .rxLen ∧ t.len = 0x00 ∧ t.idx = 0 ∧ t.crcAcc = s.cfg.crcInit ∧
        t.flLocked = true ∧ t.optctl = { optlock := true, optstrt := false, nwrp := t.obNwrp } ∧ t.optBusy = false ∧
        (s.optBusy = false → t.obNwrp = s.obNwrp) ∧ t.obRdp = s.obRdp ∧ t.dbgId = s.dbgId ∧ t.rxq = [] ∧ t.txq = [] ∧
        t.rxReady = false ∧ t.trace = s.trace ∧
        (∀ n : Nat, inProgress s (BitVec.ofNat 32 n) = false → t.mem.read? n = s.mem.read? n)) ∧
    (∃ t u, step (powerUp s) = .next t ∧ step { s with rstN := false } = .next u ∧
      t = { u with mem := t.mem } ∧
      (∀ n : Nat, inProgram s.cfg (BitVec.ofNat 32 n) = true → t.mem.read? n = u.mem.read? n) ∧
      (∀ n : Nat, inProgram s.cfg (BitVec.ofNat 32 n) = false → t.mem.read? n = none))

/-- The first act after reset is `CrcReset()`; the block is in RX_LEN, and no byte is transmitted (R45, R281). That it is in
RX_LEN already while that act is still to run is the model's reading (log entry 14). -/
def Obligations.FirstActResetsTheAccumulator : Prop :=
  ∀ s : State, s.rstN = false → s.env.grant = none →
    ∃ t, step s = .next t ∧ t.ph = .rxLen ∧ t.txq = [] ∧
      step (setRstN true t) = .next
        { setRstN true t with step := [], crcAcc := s.cfg.crcInit, trace := t.trace ++ [.crcReset] }

/-! ## Brackets over whole runs -/

/-- Every step, resuming a held handler included, keeps the brackets of R75 (b) (under the contract of R37, log entry 7): from
an orderly state at some stage, the events the step adds lead from the brackets open there to those open at the stage of
the next state, with every erase, program and option-field write inside its own. -/
def Obligations.StepKeepsBrackets : Prop :=
  ∀ (s t : State) (st : Stage), s.rstN = true → OrderlyAt st s → step s = .next t →
    ∃ (es : List Event) (st' : Stage), t.trace = s.trace ++ es ∧ OrderlyAt st' t ∧
      st.brackets.scan es = some st'.brackets
end

