-- ==== Sys2Proof/Laws/Bytes.lean ====
section
/-! SUPPORT. Bytes and words: `le32` and `le32Bytes` are inverse to each other, a byte of two sequences joined, and the
opcode map as an equivalence, and the one list that the constraints of R11 leave. -/

namespace Sys2Proof

/-- The bytes of a word, put together in the order of R15, are the word. -/
theorem le32_le32Bytes (v : Word) :
    le32 (v.extractLsb' 0 8) (v.extractLsb' 8 8) (v.extractLsb' 16 8) (v.extractLsb' 24 8) = v := by
  apply BitVec.eq_of_getLsbD_eq
  intro i hi
  simp only [le32, BitVec.getLsbD_append, BitVec.getLsbD_extractLsb']
  by_cases h1 : i < 8
  · simp [h1]
  by_cases h2 : i - 8 < 8
  · simp [h1, h2]; congr 1; omega
  by_cases h3 : i - 8 - 8 < 8
  · simp [h1, h2, h3]; congr 1; omega
  have h4 : i - 8 - 8 - 8 < 8 := by omega
  simp [h1, h2, h3, h4]; congr 1; omega

/-- The bytes of a word put together from four bytes are those bytes. -/
theorem le32Bytes_le32 (a b c d : Byte) : le32Bytes (le32 a b c d) = [a, b, c, d] := by
  simp only [le32Bytes, List.cons.injEq, and_true]
  refine ⟨?_, ?_, ?_, ?_⟩
  all_goals
    apply BitVec.eq_of_getLsbD_eq
    intro i hi
    have h1 : ¬ 8 + i < 8 := by omega
    have h2 : ¬ 16 + i < 8 := by omega
    have h3 : ¬ 24 + i < 8 := by omega
    have h4 : ¬ 16 + i - 8 < 8 := by omega
    have h5 : ¬ 24 + i - 8 < 8 := by omega
    have h6 : ¬ 24 + i - 8 - 8 < 8 := by omega
    simp only [le32, BitVec.getLsbD_append, BitVec.getLsbD_extractLsb']
    have e1 : 16 + i - 8 - 8 = i := by omega
    have e2 : 24 + i - 8 - 8 - 8 = i := by omega
    simp [hi, h1, h2, h3, h4, h5, h6, e1, e2, -BitVec.getLsbD_eq_getElem]

theorem byteAt_append_right (as bs : List Byte) (k : Nat) : byteAt (as ++ bs) (as.length + k) = byteAt bs k := by
  unfold byteAt
  rw [List.getD_append_right _ _ _ _ (by omega)]
  simp

@[simp] theorem le32Bytes_length (v : Word) : (le32Bytes v).length = 4 := rfl

/-- A command is well formed when its data fit the frame. -/
theorem wf_memWrite (addr : Word) (data : List Byte) : (Instr.memWrite addr data).wf = true ↔ data.length ≤ 245 :=
  decide_eq_true_iff (p := data.length ≤ maxWriteData)

theorem byteAt_append_left (as bs : List Byte) (k : Nat) (h : k < as.length) : byteAt (as ++ bs) k = byteAt as k := by
  unfold byteAt
  rw [List.getD_append _ _ _ _ h]

/-- Opcode lookup finds a row exactly at the row's value. -/
theorem opcodeOf_eq_some {b : Byte} {o : Opcode} : opcodeOf b = some o ↔ opcodeValue o = b := by
  constructor
  · intro h
    simpa using List.find?_some h
  · rintro rfl
    cases o <;> rfl

/-- The row of the command cut from a payload is the row it was cut for. -/
theorem rowOf_operandsOf (o : Opcode) (p : List Byte) : rowOf (operandsOf o p) = o := by cases o <;> rfl

/-- The constraints of R11 leave one list: the twelve opcodes in ascending order. -/
theorem helpList_of_valid {c : Cfg} (h : c.valid = true) : c.helpList = Config.opcodeValues := by
  simp only [Cfg.valid, Bool.and_eq_true, decide_eq_true_eq, List.all_eq_true, List.contains_iff_mem] at h
  have hl : c.helpList.length = 12 := by simp_all
  have ho : c.helpList.Pairwise (· < ·) := by simp_all
  have hm : c.helpList ⊆ Config.opcodeValues := fun b hb => by simp_all
  have hn : c.helpList.Nodup := ho.imp fun hab => BitVec.ne_of_lt hab
  have hp := (List.subperm_of_subset hn hm).perm_of_length_le (by rw [hl]; decide)
  exact hp.eq_of_pairwise (fun _ _ _ _ hab hba => absurd hba (BitVec.lt_asymm hab)) ho (by decide)

end Sys2Proof
end

