-- ==== Sys2Proof/Laws/Memory.lean ====
section
/-! SUPPORT. The memory operations: read after write, what a write or a forgetting leaves alone, and that each keeps the
canonical form. -/

namespace Sys2Proof.Machine

theorem wf_iff (m : Memory) :
    m.wf = true ↔ m.Pairwise (fun c d => c.1 < d.1) ∧ ∀ c ∈ m, c.1 < 2 ^ 32 := by
  simp [Memory.wf]

@[simp] theorem read?_nil (a : Nat) : Memory.read? [] a = none := rfl

theorem read?_cons (c : Host.Cell) (m : Memory) (a : Nat) :
    Memory.read? (c :: m) a = if c.1 = a then some c.2 else Memory.read? m a := rfl

/-- A read after a write to the same address gives the byte written. -/
@[simp] theorem read?_write_same (m : Memory) (a : Nat) (b : Byte) : (m.write a b).read? a = some b := by
  induction m with
  | nil => simp [Memory.write, read?_cons]
  | cons c m ih =>
    by_cases h : a < c.1
    · simp [Memory.write, h, read?_cons]
    · by_cases h' : a = c.1
      · simp [Memory.write, h', read?_cons]
      · have hne : c.1 ≠ a := fun hc => h' hc.symm
        simp [Memory.write, h, h', read?_cons, hne, ih]

/-- A write leaves every other address alone. -/
theorem read?_write_other (m : Memory) {a n : Nat} (b : Byte) (hn : n ≠ a) :
    (m.write a b).read? n = m.read? n := by
  have han : a ≠ n := fun h => hn h.symm
  induction m with
  | nil => simp [Memory.write, read?_cons, han]
  | cons c m ih =>
    by_cases h : a < c.1
    · simp [Memory.write, h, read?_cons, han]
    · by_cases h' : a = c.1
      · subst h'
        simp [Memory.write, read?_cons, han]
      · simp [Memory.write, h, h', read?_cons, ih]

/-- Removing entries leaves the addresses alone whose entries stay. -/
theorem read?_filter (m : Memory) (p : Host.Cell → Bool) (n : Nat) (h : ∀ b, p (n, b) = true) :
    Memory.read? (m.filter p) n = m.read? n := by
  induction m with
  | nil => rfl
  | cons c m ih =>
    by_cases hp : p c = true
    · simp [hp, read?_cons, ih]
    · have hc : c.1 ≠ n := by
        rintro rfl
        exact hp (h c.2)
      simp [hp, read?_cons, hc, ih]

/-- Forgetting one address leaves every other one alone. -/
theorem read?_forget_other (m : Memory) {a n : Nat} (hn : n ≠ a) : (m.forget a).read? n = m.read? n :=
  read?_filter m _ n fun _ => by simpa using hn

/-- Forgetting what a test selects leaves an address alone that it does not select. -/
theorem read?_forgetAll_other (m : Memory) (p : Word → Bool) {n : Nat} (hn : p (BitVec.ofNat 32 n) = false) :
    (m.forgetAll p).read? n = m.read? n :=
  read?_filter m _ n fun _ => by simp [hn]

theorem wf_filter (m : Memory) (p : Host.Cell → Bool) (h : m.wf = true) : Memory.wf (m.filter p) = true := by
  rw [wf_iff] at h ⊢
  exact ⟨h.1.filter p, fun c hc => h.2 c (List.mem_of_mem_filter hc)⟩

/-- Forgetting keeps the canonical form. -/
theorem wf_forget (m : Memory) (a : Nat) (h : m.wf = true) : (m.forget a).wf = true := wf_filter m _ h

/-- Forgetting keeps the canonical form. -/
theorem wf_forgetAll (m : Memory) (p : Word → Bool) (h : m.wf = true) : (m.forgetAll p).wf = true := wf_filter m _ h

theorem mem_write {m : Memory} {a : Nat} {b : Byte} {c : Host.Cell} (h : c ∈ m.write a b) :
    c = (a, b) ∨ c ∈ m := by
  induction m with
  | nil => simpa [Memory.write] using h
  | cons d m ih =>
    by_cases h1 : a < d.1
    · simpa [Memory.write, h1] using h
    · by_cases h2 : a = d.1
      · subst h2
        simp only [Memory.write, Nat.lt_irrefl, if_true, if_false, List.mem_cons] at h
        rcases h with h | h
        · exact .inl h
        · exact .inr (List.mem_cons_of_mem _ h)
      · simp only [Memory.write, h1, h2, if_false, List.mem_cons] at h
        rcases h with h | h
        · exact .inr (h ▸ List.mem_cons_self)
        · exact (ih h).imp_right (List.mem_cons_of_mem _)

/-- A write at a 32-bit address keeps the canonical form. -/
theorem wf_write (m : Memory) (a : Nat) (b : Byte) (ha : a < 2 ^ 32) (h : m.wf = true) :
    (m.write a b).wf = true := by
  rw [wf_iff] at h ⊢
  obtain ⟨hp, hb⟩ := h
  refine ⟨?_, fun c hc => ?_⟩
  · induction m with
    | nil => simp [Memory.write]
    | cons d m ih =>
      obtain ⟨hd, hm⟩ := List.pairwise_cons.1 hp
      by_cases h1 : a < d.1
      · simp only [Memory.write, h1, if_true]
        refine List.pairwise_cons.2 ⟨fun c hc => ?_, hp⟩
        rcases List.mem_cons.1 hc with rfl | hc
        · exact h1
        · exact Nat.lt_trans h1 (hd c hc)
      · by_cases h2 : a = d.1
        · subst h2
          simp only [Memory.write, Nat.lt_irrefl, if_true, if_false]
          exact List.pairwise_cons.2 ⟨fun c hc => hd c hc, hm⟩
        · simp only [Memory.write, h1, h2, if_false]
          refine List.pairwise_cons.2 ⟨fun c hc => ?_, ih hm fun c hc => hb c (List.mem_cons_of_mem _ hc)⟩
          rcases mem_write hc with rfl | hc
          · show d.1 < a
            omega
          · exact hd c hc
  · rcases mem_write hc with rfl | hc
    · exact ha
    · exact hb c hc

@[simp] theorem forgetAll_forgetAll (m : Memory) (p : Word → Bool) :
    (m.forgetAll p).forgetAll p = m.forgetAll p := by
  simp [Memory.forgetAll, List.filter_filter]

end Sys2Proof.Machine
end

