-- ==== Sys2Proof/Laws/PerInstr.lean ====
section
/-! SUPPORT. A statement made for every command: its exact payload fits a frame (spec/30_encoding.md R91) and is as long as
its format needs, no byte more (R108). -/

namespace Sys2Proof.Laws.PayloadFits

/-- The exact payload of a well-formed command has at most 250 bytes and exactly `NEED` of them. -/
def Statement (i : Instr) : Prop :=
  i.wf = true → (operandBytes i).length ≤ 250 ∧ need (formatOf (rowOf i)) (operandBytes i) = (operandBytes i).length

theorem getVersion : Statement .getVersion := fun _ => ⟨by decide, rfl⟩

theorem getHelp : Statement .getHelp := fun _ => ⟨by decide, rfl⟩

theorem getChipId : Statement .getChipId := fun _ => ⟨by decide, rfl⟩

theorem getReadoutProtectionStatus : Statement .getReadoutProtectionStatus := fun _ => ⟨by decide, rfl⟩

theorem goToAddress (addr : Word) : Statement (.goToAddress addr) := fun _ => ⟨Nat.le_of_ble_eq_true rfl, rfl⟩

theorem flashErase (sec cnt : Byte) : Statement (.flashErase sec cnt) := fun _ => ⟨Nat.le_of_ble_eq_true rfl, rfl⟩

theorem memWrite (addr : Word) (data : List Byte) : Statement (.memWrite addr data) := by
  intro h
  rw [wf_memWrite] at h
  have hl : (operandBytes (.memWrite addr data)).length = 5 + data.length := by
    simp only [operandBytes, List.length_append, List.length_cons, le32Bytes_length]
    omega
  have hb : (byteAt (operandBytes (.memWrite addr data)) 4).toNat = data.length := by
    show (BitVec.ofNat 8 data.length).toNat = data.length
    simp only [BitVec.toNat_ofNat]
    omega
  refine ⟨by omega, ?_⟩
  show (if (operandBytes (.memWrite addr data)).length < 5 then 5 else 5 + _) = _
  rw [if_neg (by omega), hb, hl]

theorem enableWriteProtect (mask flag : Byte) : Statement (.enableWriteProtect mask flag) :=
  fun _ => ⟨Nat.le_of_ble_eq_true rfl, rfl⟩

theorem memRead (addr : Word) (dlen : Byte) : Statement (.memRead addr dlen) :=
  fun _ => ⟨Nat.le_of_ble_eq_true rfl, rfl⟩

theorem readSectorStatus : Statement .readSectorStatus := fun _ => ⟨by decide, rfl⟩

theorem otpRead : Statement .otpRead := fun _ => ⟨by decide, rfl⟩

theorem disableWriteProtect : Statement .disableWriteProtect := fun _ => ⟨by decide, rfl⟩

end Sys2Proof.Laws.PayloadFits
end

