-- ==== Sys2Proof/Laws/State.lean ====
section
/-! SUPPORT. One lemma per field per named update of the state, each true by unfolding the update, so that no proof
unfolds a record update. -/

namespace Sys2Proof.Machine

/-! ## `emit` -/

@[simp] theorem emit_cfg (e : Event) (s : State) : (emit e s).cfg = s.cfg := rfl
@[simp] theorem emit_rstN (e : Event) (s : State) : (emit e s).rstN = s.rstN := rfl
@[simp] theorem emit_ph (e : Event) (s : State) : (emit e s).ph = s.ph := rfl
@[simp] theorem emit_step (e : Event) (s : State) : (emit e s).step = s.step := rfl
@[simp] theorem emit_v (e : Event) (s : State) : (emit e s).v = s.v := rfl
@[simp] theorem emit_r (e : Event) (s : State) : (emit e s).r = s.r := rfl
@[simp] theorem emit_fb (e : Event) (s : State) : (emit e s).fb = s.fb := rfl
@[simp] theorem emit_len (e : Event) (s : State) : (emit e s).len = s.len := rfl
@[simp] theorem emit_idx (e : Event) (s : State) : (emit e s).idx = s.idx := rfl
@[simp] theorem emit_status (e : Event) (s : State) : (emit e s).status = s.status := rfl
@[simp] theorem emit_i (e : Event) (s : State) : (emit e s).i = s.i := rfl
@[simp] theorem emit_nsec (e : Event) (s : State) : (emit e s).nsec = s.nsec := rfl
@[simp] theorem emit_crcOk (e : Event) (s : State) : (emit e s).crcOk = s.crcOk := rfl
@[simp] theorem emit_crcAcc (e : Event) (s : State) : (emit e s).crcAcc = s.crcAcc := rfl
@[simp] theorem emit_flLocked (e : Event) (s : State) : (emit e s).flLocked = s.flLocked := rfl
@[simp] theorem emit_optctl (e : Event) (s : State) : (emit e s).optctl = s.optctl := rfl
@[simp] theorem emit_optBusy (e : Event) (s : State) : (emit e s).optBusy = s.optBusy := rfl
@[simp] theorem emit_obNwrp (e : Event) (s : State) : (emit e s).obNwrp = s.obNwrp := rfl
@[simp] theorem emit_obRdp (e : Event) (s : State) : (emit e s).obRdp = s.obRdp := rfl
@[simp] theorem emit_dbgId (e : Event) (s : State) : (emit e s).dbgId = s.dbgId := rfl
@[simp] theorem emit_mem (e : Event) (s : State) : (emit e s).mem = s.mem := rfl
@[simp] theorem emit_rxq (e : Event) (s : State) : (emit e s).rxq = s.rxq := rfl
@[simp] theorem emit_txq (e : Event) (s : State) : (emit e s).txq = s.txq := rfl
@[simp] theorem emit_trace (e : Event) (s : State) : (emit e s).trace = s.trace ++ [e] := rfl
@[simp] theorem emit_env (e : Event) (s : State) : (emit e s).env = s.env := rfl

/-! ## `spend` -/

@[simp] theorem spend_cfg (s : State) : (spend s).cfg = s.cfg := rfl
@[simp] theorem spend_rstN (s : State) : (spend s).rstN = s.rstN := rfl
@[simp] theorem spend_ph (s : State) : (spend s).ph = s.ph := rfl
@[simp] theorem spend_step (s : State) : (spend s).step = s.step := rfl
@[simp] theorem spend_v (s : State) : (spend s).v = s.v := rfl
@[simp] theorem spend_r (s : State) : (spend s).r = s.r := rfl
@[simp] theorem spend_fb (s : State) : (spend s).fb = s.fb := rfl
@[simp] theorem spend_len (s : State) : (spend s).len = s.len := rfl
@[simp] theorem spend_idx (s : State) : (spend s).idx = s.idx := rfl
@[simp] theorem spend_status (s : State) : (spend s).status = s.status := rfl
@[simp] theorem spend_i (s : State) : (spend s).i = s.i := rfl
@[simp] theorem spend_nsec (s : State) : (spend s).nsec = s.nsec := rfl
@[simp] theorem spend_crcOk (s : State) : (spend s).crcOk = s.crcOk := rfl
@[simp] theorem spend_crcAcc (s : State) : (spend s).crcAcc = s.crcAcc := rfl
@[simp] theorem spend_flLocked (s : State) : (spend s).flLocked = s.flLocked := rfl
@[simp] theorem spend_optctl (s : State) : (spend s).optctl = s.optctl := rfl
@[simp] theorem spend_optBusy (s : State) : (spend s).optBusy = s.optBusy := rfl
@[simp] theorem spend_obNwrp (s : State) : (spend s).obNwrp = s.obNwrp := rfl
@[simp] theorem spend_obRdp (s : State) : (spend s).obRdp = s.obRdp := rfl
@[simp] theorem spend_dbgId (s : State) : (spend s).dbgId = s.dbgId := rfl
@[simp] theorem spend_mem (s : State) : (spend s).mem = s.mem := rfl
@[simp] theorem spend_rxq (s : State) : (spend s).rxq = s.rxq := rfl
@[simp] theorem spend_txq (s : State) : (spend s).txq = s.txq := rfl
@[simp] theorem spend_trace (s : State) : (spend s).trace = s.trace := rfl
@[simp] theorem spend_env (s : State) : (spend s).env = s.env.spend := rfl

/-! ## `takeFl` -/

@[simp] theorem takeFl_cfg (s : State) : (takeFl s).cfg = s.cfg := rfl
@[simp] theorem takeFl_rstN (s : State) : (takeFl s).rstN = s.rstN := rfl
@[simp] theorem takeFl_ph (s : State) : (takeFl s).ph = s.ph := rfl
@[simp] theorem takeFl_step (s : State) : (takeFl s).step = s.step := rfl
@[simp] theorem takeFl_v (s : State) : (takeFl s).v = s.v := rfl
@[simp] theorem takeFl_r (s : State) : (takeFl s).r = s.r := rfl
@[simp] theorem takeFl_fb (s : State) : (takeFl s).fb = s.fb := rfl
@[simp] theorem takeFl_len (s : State) : (takeFl s).len = s.len := rfl
@[simp] theorem takeFl_idx (s : State) : (takeFl s).idx = s.idx := rfl
@[simp] theorem takeFl_status (s : State) : (takeFl s).status = s.status := rfl
@[simp] theorem takeFl_i (s : State) : (takeFl s).i = s.i := rfl
@[simp] theorem takeFl_nsec (s : State) : (takeFl s).nsec = s.nsec := rfl
@[simp] theorem takeFl_crcOk (s : State) : (takeFl s).crcOk = s.crcOk := rfl
@[simp] theorem takeFl_crcAcc (s : State) : (takeFl s).crcAcc = s.crcAcc := rfl
@[simp] theorem takeFl_flLocked (s : State) : (takeFl s).flLocked = s.flLocked := rfl
@[simp] theorem takeFl_optctl (s : State) : (takeFl s).optctl = s.optctl := rfl
@[simp] theorem takeFl_optBusy (s : State) : (takeFl s).optBusy = s.optBusy := rfl
@[simp] theorem takeFl_obNwrp (s : State) : (takeFl s).obNwrp = s.obNwrp := rfl
@[simp] theorem takeFl_obRdp (s : State) : (takeFl s).obRdp = s.obRdp := rfl
@[simp] theorem takeFl_dbgId (s : State) : (takeFl s).dbgId = s.dbgId := rfl
@[simp] theorem takeFl_mem (s : State) : (takeFl s).mem = s.mem := rfl
@[simp] theorem takeFl_rxq (s : State) : (takeFl s).rxq = s.rxq := rfl
@[simp] theorem takeFl_txq (s : State) : (takeFl s).txq = s.txq := rfl
@[simp] theorem takeFl_trace (s : State) : (takeFl s).trace = s.trace := rfl
@[simp] theorem takeFl_env (s : State) : (takeFl s).env = s.env.takeFl := rfl

/-! ## `takeOpt` -/

@[simp] theorem takeOpt_cfg (s : State) : (takeOpt s).cfg = s.cfg := rfl
@[simp] theorem takeOpt_rstN (s : State) : (takeOpt s).rstN = s.rstN := rfl
@[simp] theorem takeOpt_ph (s : State) : (takeOpt s).ph = s.ph := rfl
@[simp] theorem takeOpt_step (s : State) : (takeOpt s).step = s.step := rfl
@[simp] theorem takeOpt_v (s : State) : (takeOpt s).v = s.v := rfl
@[simp] theorem takeOpt_r (s : State) : (takeOpt s).r = s.r := rfl
@[simp] theorem takeOpt_fb (s : State) : (takeOpt s).fb = s.fb := rfl
@[simp] theorem takeOpt_len (s : State) : (takeOpt s).len = s.len := rfl
@[simp] theorem takeOpt_idx (s : State) : (takeOpt s).idx = s.idx := rfl
@[simp] theorem takeOpt_status (s : State) : (takeOpt s).status = s.status := rfl
@[simp] theorem takeOpt_i (s : State) : (takeOpt s).i = s.i := rfl
@[simp] theorem takeOpt_nsec (s : State) : (takeOpt s).nsec = s.nsec := rfl
@[simp] theorem takeOpt_crcOk (s : State) : (takeOpt s).crcOk = s.crcOk := rfl
@[simp] theorem takeOpt_crcAcc (s : State) : (takeOpt s).crcAcc = s.crcAcc := rfl
@[simp] theorem takeOpt_flLocked (s : State) : (takeOpt s).flLocked = s.flLocked := rfl
@[simp] theorem takeOpt_optctl (s : State) : (takeOpt s).optctl = s.optctl := rfl
@[simp] theorem takeOpt_optBusy (s : State) : (takeOpt s).optBusy = s.optBusy := rfl
@[simp] theorem takeOpt_obNwrp (s : State) : (takeOpt s).obNwrp = s.obNwrp := rfl
@[simp] theorem takeOpt_obRdp (s : State) : (takeOpt s).obRdp = s.obRdp := rfl
@[simp] theorem takeOpt_dbgId (s : State) : (takeOpt s).dbgId = s.dbgId := rfl
@[simp] theorem takeOpt_mem (s : State) : (takeOpt s).mem = s.mem := rfl
@[simp] theorem takeOpt_rxq (s : State) : (takeOpt s).rxq = s.rxq := rfl
@[simp] theorem takeOpt_txq (s : State) : (takeOpt s).txq = s.txq := rfl
@[simp] theorem takeOpt_trace (s : State) : (takeOpt s).trace = s.trace := rfl
@[simp] theorem takeOpt_env (s : State) : (takeOpt s).env = s.env.takeOpt := rfl

/-! ## `launchMoves` -/

/-- All that the environment does at a launch: nothing, a choice used up, or its step `opt_complete`. -/
theorem launchMoves_cases (s : State) :
    launchMoves s = s ∨ launchMoves s = takeOpt s ∨
      (s.optBusy = true ∧ s.env.nextOpt = true ∧ launchMoves s = optComplete (takeOpt s)) := by
  unfold launchMoves
  cases s.optBusy <;> cases s.env.nextOpt <;> simp

theorem launchMoves_idle {s : State} (h : s.optBusy = false) : launchMoves s = s := by simp [launchMoves, h]

theorem launchMoves_waits {s : State} (hb : s.optBusy = true) (hn : s.env.nextOpt = false) :
    launchMoves s = takeOpt s := by simp [launchMoves, hb, hn]

theorem launchMoves_completes {s : State} (hb : s.optBusy = true) (hn : s.env.nextOpt = true) :
    launchMoves s = optComplete (takeOpt s) := by simp [launchMoves, hb, hn]

@[simp] theorem launchMoves_cfg (s : State) : (launchMoves s).cfg = s.cfg := by
  rcases launchMoves_cases s with h | h | ⟨-, -, h⟩ <;> rw [h] <;> rfl
@[simp] theorem launchMoves_rstN (s : State) : (launchMoves s).rstN = s.rstN := by
  rcases launchMoves_cases s with h | h | ⟨-, -, h⟩ <;> rw [h] <;> rfl
@[simp] theorem launchMoves_ph (s : State) : (launchMoves s).ph = s.ph := by
  rcases launchMoves_cases s with h | h | ⟨-, -, h⟩ <;> rw [h] <;> rfl
@[simp] theorem launchMoves_step (s : State) : (launchMoves s).step = s.step := by
  rcases launchMoves_cases s with h | h | ⟨-, -, h⟩ <;> rw [h] <;> rfl
@[simp] theorem launchMoves_v (s : State) : (launchMoves s).v = s.v := by
  rcases launchMoves_cases s with h | h | ⟨-, -, h⟩ <;> rw [h] <;> rfl
@[simp] theorem launchMoves_r (s : State) : (launchMoves s).r = s.r := by
  rcases launchMoves_cases s with h | h | ⟨-, -, h⟩ <;> rw [h] <;> rfl
@[simp] theorem launchMoves_fb (s : State) : (launchMoves s).fb = s.fb := by
  rcases launchMoves_cases s with h | h | ⟨-, -, h⟩ <;> rw [h] <;> rfl
@[simp] theorem launchMoves_len (s : State) : (launchMoves s).len = s.len := by
  rcases launchMoves_cases s with h | h | ⟨-, -, h⟩ <;> rw [h] <;> rfl
@[simp] theorem launchMoves_idx (s : State) : (launchMoves s).idx = s.idx := by
  rcases launchMoves_cases s with h | h | ⟨-, -, h⟩ <;> rw [h] <;> rfl
@[simp] theorem launchMoves_status (s : State) : (launchMoves s).status = s.status := by
  rcases launchMoves_cases s with h | h | ⟨-, -, h⟩ <;> rw [h] <;> rfl
@[simp] theorem launchMoves_i (s : State) : (launchMoves s).i = s.i := by
  rcases launchMoves_cases s with h | h | ⟨-, -, h⟩ <;> rw [h] <;> rfl
@[simp] theorem launchMoves_nsec (s : State) : (launchMoves s).nsec = s.nsec := by
  rcases launchMoves_cases s with h | h | ⟨-, -, h⟩ <;> rw [h] <;> rfl
@[simp] theorem launchMoves_crcOk (s : State) : (launchMoves s).crcOk = s.crcOk := by
  rcases launchMoves_cases s with h | h | ⟨-, -, h⟩ <;> rw [h] <;> rfl
@[simp] theorem launchMoves_crcAcc (s : State) : (launchMoves s).crcAcc = s.crcAcc := by
  rcases launchMoves_cases s with h | h | ⟨-, -, h⟩ <;> rw [h] <;> rfl
@[simp] theorem launchMoves_flLocked (s : State) : (launchMoves s).flLocked = s.flLocked := by
  rcases launchMoves_cases s with h | h | ⟨-, -, h⟩ <;> rw [h] <;> rfl
@[simp] theorem launchMoves_obRdp (s : State) : (launchMoves s).obRdp = s.obRdp := by
  rcases launchMoves_cases s with h | h | ⟨-, -, h⟩ <;> rw [h] <;> rfl
@[simp] theorem launchMoves_dbgId (s : State) : (launchMoves s).dbgId = s.dbgId := by
  rcases launchMoves_cases s with h | h | ⟨-, -, h⟩ <;> rw [h] <;> rfl
@[simp] theorem launchMoves_mem (s : State) : (launchMoves s).mem = s.mem := by
  rcases launchMoves_cases s with h | h | ⟨-, -, h⟩ <;> rw [h] <;> rfl
@[simp] theorem launchMoves_rxq (s : State) : (launchMoves s).rxq = s.rxq := by
  rcases launchMoves_cases s with h | h | ⟨-, -, h⟩ <;> rw [h] <;> rfl
@[simp] theorem launchMoves_txq (s : State) : (launchMoves s).txq = s.txq := by
  rcases launchMoves_cases s with h | h | ⟨-, -, h⟩ <;> rw [h] <;> rfl

/-! ## `busTaken` -/

@[simp] theorem busTaken_cfg (a : Word) (s : State) : (busTaken a s).cfg = s.cfg := rfl
@[simp] theorem busTaken_rstN (a : Word) (s : State) : (busTaken a s).rstN = s.rstN := rfl
@[simp] theorem busTaken_ph (a : Word) (s : State) : (busTaken a s).ph = s.ph := rfl
@[simp] theorem busTaken_step (a : Word) (s : State) : (busTaken a s).step = s.step := rfl
@[simp] theorem busTaken_v (a : Word) (s : State) : (busTaken a s).v = s.v := rfl
@[simp] theorem busTaken_r (a : Word) (s : State) : (busTaken a s).r = s.r := rfl
@[simp] theorem busTaken_fb (a : Word) (s : State) : (busTaken a s).fb = s.fb := rfl
@[simp] theorem busTaken_len (a : Word) (s : State) : (busTaken a s).len = s.len := rfl
@[simp] theorem busTaken_idx (a : Word) (s : State) : (busTaken a s).idx = s.idx := rfl
@[simp] theorem busTaken_status (a : Word) (s : State) : (busTaken a s).status = s.status := rfl
@[simp] theorem busTaken_i (a : Word) (s : State) : (busTaken a s).i = s.i := rfl
@[simp] theorem busTaken_nsec (a : Word) (s : State) : (busTaken a s).nsec = s.nsec := rfl
@[simp] theorem busTaken_crcOk (a : Word) (s : State) : (busTaken a s).crcOk = s.crcOk := rfl
@[simp] theorem busTaken_crcAcc (a : Word) (s : State) : (busTaken a s).crcAcc = s.crcAcc := rfl
@[simp] theorem busTaken_flLocked (a : Word) (s : State) : (busTaken a s).flLocked = s.flLocked := rfl
@[simp] theorem busTaken_optctl (a : Word) (s : State) : (busTaken a s).optctl = s.optctl := rfl
@[simp] theorem busTaken_optBusy (a : Word) (s : State) : (busTaken a s).optBusy = s.optBusy := rfl
@[simp] theorem busTaken_obNwrp (a : Word) (s : State) : (busTaken a s).obNwrp = s.obNwrp := rfl
@[simp] theorem busTaken_obRdp (a : Word) (s : State) : (busTaken a s).obRdp = s.obRdp := rfl
@[simp] theorem busTaken_dbgId (a : Word) (s : State) : (busTaken a s).dbgId = s.dbgId := rfl
@[simp] theorem busTaken_mem (a : Word) (s : State) : (busTaken a s).mem = s.mem := rfl
@[simp] theorem busTaken_rxq (a : Word) (s : State) : (busTaken a s).rxq = s.rxq := rfl
@[simp] theorem busTaken_txq (a : Word) (s : State) : (busTaken a s).txq = s.txq := rfl
@[simp] theorem busTaken_trace (a : Word) (s : State) : (busTaken a s).trace = s.trace := rfl
@[simp] theorem busTaken_env (a : Word) (s : State) :
    (busTaken a s).env = if (s.mem.read? a.toNat).isSome then s.env else s.env.takeRd := rfl

/-! ## `primTx` -/

@[simp] theorem primTx_cfg (b : Byte) (s : State) : (primTx b s).cfg = s.cfg := rfl
@[simp] theorem primTx_rstN (b : Byte) (s : State) : (primTx b s).rstN = s.rstN := rfl
@[simp] theorem primTx_ph (b : Byte) (s : State) : (primTx b s).ph = s.ph := rfl
@[simp] theorem primTx_step (b : Byte) (s : State) : (primTx b s).step = s.step := rfl
@[simp] theorem primTx_v (b : Byte) (s : State) : (primTx b s).v = s.v := rfl
@[simp] theorem primTx_r (b : Byte) (s : State) : (primTx b s).r = s.r := rfl
@[simp] theorem primTx_fb (b : Byte) (s : State) : (primTx b s).fb = s.fb := rfl
@[simp] theorem primTx_len (b : Byte) (s : State) : (primTx b s).len = s.len := rfl
@[simp] theorem primTx_idx (b : Byte) (s : State) : (primTx b s).idx = s.idx := rfl
@[simp] theorem primTx_status (b : Byte) (s : State) : (primTx b s).status = s.status := rfl
@[simp] theorem primTx_i (b : Byte) (s : State) : (primTx b s).i = s.i := rfl
@[simp] theorem primTx_nsec (b : Byte) (s : State) : (primTx b s).nsec = s.nsec := rfl
@[simp] theorem primTx_crcOk (b : Byte) (s : State) : (primTx b s).crcOk = s.crcOk := rfl
@[simp] theorem primTx_crcAcc (b : Byte) (s : State) : (primTx b s).crcAcc = s.crcAcc := rfl
@[simp] theorem primTx_flLocked (b : Byte) (s : State) : (primTx b s).flLocked = s.flLocked := rfl
@[simp] theorem primTx_optctl (b : Byte) (s : State) : (primTx b s).optctl = s.optctl := rfl
@[simp] theorem primTx_optBusy (b : Byte) (s : State) : (primTx b s).optBusy = s.optBusy := rfl
@[simp] theorem primTx_obNwrp (b : Byte) (s : State) : (primTx b s).obNwrp = s.obNwrp := rfl
@[simp] theorem primTx_obRdp (b : Byte) (s : State) : (primTx b s).obRdp = s.obRdp := rfl
@[simp] theorem primTx_dbgId (b : Byte) (s : State) : (primTx b s).dbgId = s.dbgId := rfl
@[simp] theorem primTx_mem (b : Byte) (s : State) : (primTx b s).mem = s.mem := rfl
@[simp] theorem primTx_rxq (b : Byte) (s : State) : (primTx b s).rxq = s.rxq := rfl
@[simp] theorem primTx_txq (b : Byte) (s : State) : (primTx b s).txq = s.txq ++ [b] := rfl
@[simp] theorem primTx_trace (b : Byte) (s : State) : (primTx b s).trace = s.trace ++ [.tx b] := rfl
@[simp] theorem primTx_env (b : Byte) (s : State) : (primTx b s).env = s.env := rfl

/-! ## `eraseEffect` -/

@[simp] theorem eraseEffect_cfg (s : State) : (eraseEffect s).cfg = s.cfg := rfl
@[simp] theorem eraseEffect_rstN (s : State) : (eraseEffect s).rstN = s.rstN := rfl
@[simp] theorem eraseEffect_ph (s : State) : (eraseEffect s).ph = s.ph := rfl
@[simp] theorem eraseEffect_step (s : State) : (eraseEffect s).step = s.step := rfl
@[simp] theorem eraseEffect_v (s : State) : (eraseEffect s).v = s.v := rfl
@[simp] theorem eraseEffect_r (s : State) : (eraseEffect s).r = s.r := rfl
@[simp] theorem eraseEffect_fb (s : State) : (eraseEffect s).fb = s.fb := rfl
@[simp] theorem eraseEffect_len (s : State) : (eraseEffect s).len = s.len := rfl
@[simp] theorem eraseEffect_idx (s : State) : (eraseEffect s).idx = s.idx := rfl
@[simp] theorem eraseEffect_status (s : State) : (eraseEffect s).status = s.status := rfl
@[simp] theorem eraseEffect_i (s : State) : (eraseEffect s).i = s.i := rfl
@[simp] theorem eraseEffect_nsec (s : State) : (eraseEffect s).nsec = s.nsec := rfl
@[simp] theorem eraseEffect_crcOk (s : State) : (eraseEffect s).crcOk = s.crcOk := rfl
@[simp] theorem eraseEffect_crcAcc (s : State) : (eraseEffect s).crcAcc = s.crcAcc := rfl
@[simp] theorem eraseEffect_flLocked (s : State) : (eraseEffect s).flLocked = s.flLocked := rfl
@[simp] theorem eraseEffect_optctl (s : State) : (eraseEffect s).optctl = s.optctl := rfl
@[simp] theorem eraseEffect_optBusy (s : State) : (eraseEffect s).optBusy = s.optBusy := rfl
@[simp] theorem eraseEffect_obNwrp (s : State) : (eraseEffect s).obNwrp = s.obNwrp := rfl
@[simp] theorem eraseEffect_obRdp (s : State) : (eraseEffect s).obRdp = s.obRdp := rfl
@[simp] theorem eraseEffect_dbgId (s : State) : (eraseEffect s).dbgId = s.dbgId := rfl
@[simp] theorem eraseEffect_mem (s : State) : (eraseEffect s).mem = s.mem.forgetAll (inProgram s.cfg) := rfl
@[simp] theorem eraseEffect_rxq (s : State) : (eraseEffect s).rxq = s.rxq := rfl
@[simp] theorem eraseEffect_txq (s : State) : (eraseEffect s).txq = s.txq := rfl
@[simp] theorem eraseEffect_trace (s : State) : (eraseEffect s).trace = s.trace := rfl
@[simp] theorem eraseEffect_env (s : State) : (eraseEffect s).env = s.env := rfl

/-! ## `programEffect` -/

@[simp] theorem programEffect_cfg (a : Word) (d : Byte) (r : FlResult) (s : State) :
    (programEffect a d r s).cfg = s.cfg := rfl
@[simp] theorem programEffect_rstN (a : Word) (d : Byte) (r : FlResult) (s : State) :
    (programEffect a d r s).rstN = s.rstN := rfl
@[simp] theorem programEffect_ph (a : Word) (d : Byte) (r : FlResult) (s : State) :
    (programEffect a d r s).ph = s.ph := rfl
@[simp] theorem programEffect_step (a : Word) (d : Byte) (r : FlResult) (s : State) :
    (programEffect a d r s).step = s.step := rfl
@[simp] theorem programEffect_v (a : Word) (d : Byte) (r : FlResult) (s : State) :
    (programEffect a d r s).v = s.v := rfl
@[simp] theorem programEffect_r (a : Word) (d : Byte) (r : FlResult) (s : State) :
    (programEffect a d r s).r = s.r := rfl
@[simp] theorem programEffect_fb (a : Word) (d : Byte) (r : FlResult) (s : State) :
    (programEffect a d r s).fb = s.fb := rfl
@[simp] theorem programEffect_len (a : Word) (d : Byte) (r : FlResult) (s : State) :
    (programEffect a d r s).len = s.len := rfl
@[simp] theorem programEffect_idx (a : Word) (d : Byte) (r : FlResult) (s : State) :
    (programEffect a d r s).idx = s.idx := rfl
@[simp] theorem programEffect_status (a : Word) (d : Byte) (r : FlResult) (s : State) :
    (programEffect a d r s).status = s.status := rfl
@[simp] theorem programEffect_i (a : Word) (d : Byte) (r : FlResult) (s : State) :
    (programEffect a d r s).i = s.i := rfl
@[simp] theorem programEffect_nsec (a : Word) (d : Byte) (r : FlResult) (s : State) :
    (programEffect a d r s).nsec = s.nsec := rfl
@[simp] theorem programEffect_crcOk (a : Word) (d : Byte) (r : FlResult) (s : State) :
    (programEffect a d r s).crcOk = s.crcOk := rfl
@[simp] theorem programEffect_crcAcc (a : Word) (d : Byte) (r : FlResult) (s : State) :
    (programEffect a d r s).crcAcc = s.crcAcc := rfl
@[simp] theorem programEffect_flLocked (a : Word) (d : Byte) (r : FlResult) (s : State) :
    (programEffect a d r s).flLocked = s.flLocked := rfl
@[simp] theorem programEffect_optctl (a : Word) (d : Byte) (r : FlResult) (s : State) :
    (programEffect a d r s).optctl = s.optctl := rfl
@[simp] theorem programEffect_optBusy (a : Word) (d : Byte) (r : FlResult) (s : State) :
    (programEffect a d r s).optBusy = s.optBusy := rfl
@[simp] theorem programEffect_obNwrp (a : Word) (d : Byte) (r : FlResult) (s : State) :
    (programEffect a d r s).obNwrp = s.obNwrp := rfl
@[simp] theorem programEffect_obRdp (a : Word) (d : Byte) (r : FlResult) (s : State) :
    (programEffect a d r s).obRdp = s.obRdp := rfl
@[simp] theorem programEffect_dbgId (a : Word) (d : Byte) (r : FlResult) (s : State) :
    (programEffect a d r s).dbgId = s.dbgId := rfl
@[simp] theorem programEffect_mem (a : Word) (d : Byte) (r : FlResult) (s : State) :
    (programEffect a d r s).mem = if s.env.memKeeps && inProgram s.cfg a && decide (r = .pass) then s.mem.write a.toNat d else s.mem.forget a.toNat := rfl
@[simp] theorem programEffect_rxq (a : Word) (d : Byte) (r : FlResult) (s : State) :
    (programEffect a d r s).rxq = s.rxq := rfl
@[simp] theorem programEffect_txq (a : Word) (d : Byte) (r : FlResult) (s : State) :
    (programEffect a d r s).txq = s.txq := rfl
@[simp] theorem programEffect_trace (a : Word) (d : Byte) (r : FlResult) (s : State) :
    (programEffect a d r s).trace = s.trace := rfl
@[simp] theorem programEffect_env (a : Word) (d : Byte) (r : FlResult) (s : State) :
    (programEffect a d r s).env = s.env := rfl

/-! ## `busWriteEffect` -/

@[simp] theorem busWriteEffect_cfg (a : Word) (d : Byte) (s : State) : (busWriteEffect a d s).cfg = s.cfg := rfl
@[simp] theorem busWriteEffect_rstN (a : Word) (d : Byte) (s : State) : (busWriteEffect a d s).rstN = s.rstN := rfl
@[simp] theorem busWriteEffect_ph (a : Word) (d : Byte) (s : State) : (busWriteEffect a d s).ph = s.ph := rfl
@[simp] theorem busWriteEffect_step (a : Word) (d : Byte) (s : State) : (busWriteEffect a d s).step = s.step := rfl
@[simp] theorem busWriteEffect_v (a : Word) (d : Byte) (s : State) : (busWriteEffect a d s).v = s.v := rfl
@[simp] theorem busWriteEffect_r (a : Word) (d : Byte) (s : State) : (busWriteEffect a d s).r = s.r := rfl
@[simp] theorem busWriteEffect_fb (a : Word) (d : Byte) (s : State) : (busWriteEffect a d s).fb = s.fb := rfl
@[simp] theorem busWriteEffect_len (a : Word) (d : Byte) (s : State) : (busWriteEffect a d s).len = s.len := rfl
@[simp] theorem busWriteEffect_idx (a : Word) (d : Byte) (s : State) : (busWriteEffect a d s).idx = s.idx := rfl
@[simp] theorem busWriteEffect_status (a : Word) (d : Byte) (s : State) :
    (busWriteEffect a d s).status = s.status := rfl
@[simp] theorem busWriteEffect_i (a : Word) (d : Byte) (s : State) : (busWriteEffect a d s).i = s.i := rfl
@[simp] theorem busWriteEffect_nsec (a : Word) (d : Byte) (s : State) : (busWriteEffect a d s).nsec = s.nsec := rfl
@[simp] theorem busWriteEffect_crcOk (a : Word) (d : Byte) (s : State) : (busWriteEffect a d s).crcOk = s.crcOk := rfl
@[simp] theorem busWriteEffect_crcAcc (a : Word) (d : Byte) (s : State) :
    (busWriteEffect a d s).crcAcc = s.crcAcc := rfl
@[simp] theorem busWriteEffect_flLocked (a : Word) (d : Byte) (s : State) :
    (busWriteEffect a d s).flLocked = s.flLocked := rfl
@[simp] theorem busWriteEffect_optctl (a : Word) (d : Byte) (s : State) :
    (busWriteEffect a d s).optctl = s.optctl := rfl
@[simp] theorem busWriteEffect_optBusy (a : Word) (d : Byte) (s : State) :
    (busWriteEffect a d s).optBusy = s.optBusy := rfl
@[simp] theorem busWriteEffect_obNwrp (a : Word) (d : Byte) (s : State) :
    (busWriteEffect a d s).obNwrp = s.obNwrp := rfl
@[simp] theorem busWriteEffect_obRdp (a : Word) (d : Byte) (s : State) : (busWriteEffect a d s).obRdp = s.obRdp := rfl
@[simp] theorem busWriteEffect_dbgId (a : Word) (d : Byte) (s : State) : (busWriteEffect a d s).dbgId = s.dbgId := rfl
@[simp] theorem busWriteEffect_mem (a : Word) (d : Byte) (s : State) :
    (busWriteEffect a d s).mem = if s.env.memKeeps && inVolatile s.cfg a then s.mem.write a.toNat d else s.mem.forget a.toNat := rfl
@[simp] theorem busWriteEffect_rxq (a : Word) (d : Byte) (s : State) : (busWriteEffect a d s).rxq = s.rxq := rfl
@[simp] theorem busWriteEffect_txq (a : Word) (d : Byte) (s : State) : (busWriteEffect a d s).txq = s.txq := rfl
@[simp] theorem busWriteEffect_trace (a : Word) (d : Byte) (s : State) : (busWriteEffect a d s).trace = s.trace := rfl
@[simp] theorem busWriteEffect_env (a : Word) (d : Byte) (s : State) : (busWriteEffect a d s).env = s.env := rfl

/-! ## `answered` -/

@[simp] theorem answered_cfg (s : State) (bs : List Byte) (es : List Event) : (answered s bs es).cfg = s.cfg := rfl
@[simp] theorem answered_rstN (s : State) (bs : List Byte) (es : List Event) : (answered s bs es).rstN = s.rstN := rfl
@[simp] theorem answered_ph (s : State) (bs : List Byte) (es : List Event) : (answered s bs es).ph = .rxLen := rfl
@[simp] theorem answered_step (s : State) (bs : List Byte) (es : List Event) : (answered s bs es).step = [] := rfl
@[simp] theorem answered_v (s : State) (bs : List Byte) (es : List Event) : (answered s bs es).v = s.v := rfl
@[simp] theorem answered_r (s : State) (bs : List Byte) (es : List Event) : (answered s bs es).r = s.r := rfl
@[simp] theorem answered_fb (s : State) (bs : List Byte) (es : List Event) : (answered s bs es).fb = s.fb := rfl
@[simp] theorem answered_len (s : State) (bs : List Byte) (es : List Event) : (answered s bs es).len = s.len := rfl
@[simp] theorem answered_idx (s : State) (bs : List Byte) (es : List Event) : (answered s bs es).idx = s.idx := rfl
@[simp] theorem answered_status (s : State) (bs : List Byte) (es : List Event) :
    (answered s bs es).status = s.status := rfl
@[simp] theorem answered_i (s : State) (bs : List Byte) (es : List Event) : (answered s bs es).i = s.i := rfl
@[simp] theorem answered_nsec (s : State) (bs : List Byte) (es : List Event) : (answered s bs es).nsec = s.nsec := rfl
@[simp] theorem answered_crcOk (s : State) (bs : List Byte) (es : List Event) :
    (answered s bs es).crcOk = s.crcOk := rfl
@[simp] theorem answered_crcAcc (s : State) (bs : List Byte) (es : List Event) :
    (answered s bs es).crcAcc = s.crcAcc := rfl
@[simp] theorem answered_flLocked (s : State) (bs : List Byte) (es : List Event) :
    (answered s bs es).flLocked = s.flLocked := rfl
@[simp] theorem answered_optctl (s : State) (bs : List Byte) (es : List Event) :
    (answered s bs es).optctl = s.optctl := rfl
@[simp] theorem answered_optBusy (s : State) (bs : List Byte) (es : List Event) :
    (answered s bs es).optBusy = s.optBusy := rfl
@[simp] theorem answered_obNwrp (s : State) (bs : List Byte) (es : List Event) :
    (answered s bs es).obNwrp = s.obNwrp := rfl
@[simp] theorem answered_obRdp (s : State) (bs : List Byte) (es : List Event) :
    (answered s bs es).obRdp = s.obRdp := rfl
@[simp] theorem answered_dbgId (s : State) (bs : List Byte) (es : List Event) :
    (answered s bs es).dbgId = s.dbgId := rfl
@[simp] theorem answered_mem (s : State) (bs : List Byte) (es : List Event) : (answered s bs es).mem = s.mem := rfl
@[simp] theorem answered_rxq (s : State) (bs : List Byte) (es : List Event) : (answered s bs es).rxq = s.rxq := rfl
@[simp] theorem answered_txq (s : State) (bs : List Byte) (es : List Event) :
    (answered s bs es).txq = s.txq ++ bs := rfl
@[simp] theorem answered_trace (s : State) (bs : List Byte) (es : List Event) :
    (answered s bs es).trace = s.trace ++ es := rfl
@[simp] theorem answered_env (s : State) (bs : List Byte) (es : List Event) : (answered s bs es).env = s.env := rfl

end Sys2Proof.Machine
end

