-- ==== Sys2Proof/Laws/Run.lean ====
section
/-! SUPPORT. What running a list of entries can do: one inversion lemma for `advance`, one induction principle for `run`,
the unheld run as a fold, and the fields that no entry changes. -/

namespace Sys2Proof.Machine

/-! ## The environment's choices -/

@[simp] theorem Env.spend_flDraws (e : Env) : e.spend.flDraws = e.flDraws := rfl
@[simp] theorem Env.spend_rdDraws (e : Env) : e.spend.rdDraws = e.rdDraws := rfl
@[simp] theorem Env.spend_optDraws (e : Env) : e.spend.optDraws = e.optDraws := rfl
@[simp] theorem Env.spend_memKeeps (e : Env) : e.spend.memKeeps = e.memKeeps := rfl
@[simp] theorem Env.spend_draws (e : Env) : e.spend.draws = e.draws := rfl

@[simp] theorem Env.takeFl_grant (e : Env) : e.takeFl.grant = e.grant := by unfold Env.takeFl; split <;> rfl
@[simp] theorem Env.takeFl_memKeeps (e : Env) : e.takeFl.memKeeps = e.memKeeps := by
  unfold Env.takeFl; split <;> rfl
@[simp] theorem Env.takeRd_grant (e : Env) : e.takeRd.grant = e.grant := by unfold Env.takeRd; split <;> rfl
@[simp] theorem Env.takeRd_memKeeps (e : Env) : e.takeRd.memKeeps = e.memKeeps := by
  unfold Env.takeRd; split <;> rfl
@[simp] theorem Env.takeOpt_grant (e : Env) : e.takeOpt.grant = e.grant := by unfold Env.takeOpt; split <;> rfl
@[simp] theorem Env.takeOpt_memKeeps (e : Env) : e.takeOpt.memKeeps = e.memKeeps := by
  unfold Env.takeOpt; split <;> rfl
@[simp] theorem Env.draw_grant (e : Env) : e.draw.grant = e.grant := rfl
@[simp] theorem Env.draw_memKeeps (e : Env) : e.draw.memKeeps = e.memKeeps := rfl

/-- Without a limit, a completed primitive uses nothing up. -/
theorem Env.spend_of_none {e : Env} (h : e.grant = none) : e.spend = e := by
  cases e; simp_all [Env.spend]

theorem spend_of_none {s : State} (h : s.env.grant = none) : spend s = s := by
  rw [spend, Env.spend_of_none h]

theorem stalled_of_none {s : State} (h : s.env.grant = none) : stalled s = false := by simp [stalled, h]

/-! ## One entry -/

/-- All that `advance` can do. -/
theorem advance_cases (op : Op) (s : State) :
    (callsNothing op s = true ∧ advance op s = .done (perform op s)) ∨
    (callsNothing op s = false ∧ (stalled s || waitsOn op s) = true ∧ advance op s = .hold (whileHeld op s)) ∨
    (callsNothing op s = false ∧ (stalled s || waitsOn op s) = false ∧
      advance op s = .done (perform op (spend s))) := by
  unfold advance
  cases callsNothing op s <;> cases stalled s || waitsOn op s <;> simp

@[simp] theorem whileHeld_of_ne {op : Op} (h : op ≠ .waitOptIdle) (s : State) : whileHeld op s = s := by
  simp [whileHeld, h]

@[simp] theorem whileHeld_wait (s : State) : whileHeld .waitOptIdle s = launchMoves s := rfl

theorem whileHeld_of_idle (op : Op) {s : State} (h : s.optBusy = false) : whileHeld op s = s := by
  simp [whileHeld, launchMoves_idle h]

/-- With an environment that sets no limit, an entry that is no failing wait completes. -/
theorem advance_free {op : Op} {s : State} (hg : s.env.grant = none) (hw : waitsOn op s = false) :
    advance op s = .done (perform op s) := by
  simp [advance, stalled_of_none hg, hw, spend_of_none hg]

theorem waitsOn_of_ne {op : Op} (h : op ≠ .waitOptIdle) (s : State) : waitsOn op s = false := by simp [waitsOn, h]

theorem waitsOn_of_idle (op : Op) {s : State} (h : s.optBusy = false) : waitsOn op s = false := by simp [waitsOn, h]

/-! ## A list of entries -/

@[simp] theorem run_nil (s : State) : run [] s = s := rfl

theorem run_cons_of_done {op : Op} {ops : List Op} {s t : State} (h : advance op s = .done t) :
    run (op :: ops) s = run ops t := by simp [run, h]

theorem run_cons_of_hold {op : Op} {ops : List Op} {s t : State} (h : advance op s = .hold t) :
    run (op :: ops) s = { t with step := op :: ops } := by simp [run, h]

theorem run_cons_free {op : Op} {ops : List Op} {s : State} (hg : s.env.grant = none) (hw : waitsOn op s = false) :
    run (op :: ops) s = run ops (perform op s) := run_cons_of_done (advance_free hg hw)

/-- What every entry of a list keeps, the run of the list keeps, whether it completes or holds. -/
theorem run_induction {P : State → Prop} (hstep : ∀ s l, P s → P { s with step := l })
    (hspend : ∀ s, P s → P (spend s)) :
    ∀ (ops : List Op) (s : State), (Op.waitOptIdle ∈ ops → ∀ s, P s → P (launchMoves s)) →
      (∀ op ∈ ops, ∀ s, P s → P (perform op s)) → P s → P (run ops s)
  | [], _, _, _, h => h
  | op :: ops, s, ht, hp, h => by
    have hrest : ∀ o ∈ ops, ∀ s, P s → P (perform o s) := fun o ho => hp o (List.mem_cons_of_mem _ ho)
    have htrest : Op.waitOptIdle ∈ ops → ∀ s, P s → P (launchMoves s) := fun hw => ht (List.mem_cons_of_mem _ hw)
    have hop : ∀ s, P s → P (perform op s) := hp op List.mem_cons_self
    rcases advance_cases op s with ⟨-, ha⟩ | ⟨-, -, ha⟩ | ⟨-, -, ha⟩
    · rw [run_cons_of_done ha]
      exact run_induction hstep hspend ops _ htrest hrest (hop _ h)
    · rw [run_cons_of_hold ha]
      refine hstep _ _ ?_
      by_cases hw : op = .waitOptIdle
      · subst hw
        exact ht List.mem_cons_self _ h
      · rwa [whileHeld_of_ne hw]
    · rw [run_cons_of_done ha]
      exact run_induction hstep hspend ops _ htrest hrest (hop _ (hspend _ h))

/-! ## What no entry changes -/

/-- No entry touches the configuration, the reset input, the frame, the receive stream, the readout-protection byte or
the debug-ID field. -/
theorem perform_fixed (op : Op) (s : State) :
    (perform op s).cfg = s.cfg ∧ (perform op s).rstN = s.rstN ∧ (perform op s).fb = s.fb ∧
    (perform op s).len = s.len ∧ (perform op s).idx = s.idx ∧ (perform op s).rxq = s.rxq ∧
    (perform op s).obRdp = s.obRdp ∧ (perform op s).dbgId = s.dbgId := by
  cases op <;>
    simp [perform, primCrcReset, primCrcFeed, primCrcValue, primTxRead, primFlashUnlock, primFlashLock,
      primEraseSector, primMassErase, primProgramByte, primBusWrite, primBusRead, primOptUnlock, primOptLock,
      primWaitOptIdle, primOptClearOptlock, primOptWriteNwrp, primOptSetOptstrt, primOptReadNwrp, primObReadRdp,
      primDbgIdRead, primGo, optComplete] <;>
    (try split) <;> simp

@[simp] theorem perform_cfg (op : Op) (s : State) : (perform op s).cfg = s.cfg := (perform_fixed op s).1
@[simp] theorem perform_rstN (op : Op) (s : State) : (perform op s).rstN = s.rstN := (perform_fixed op s).2.1
@[simp] theorem perform_fb (op : Op) (s : State) : (perform op s).fb = s.fb := (perform_fixed op s).2.2.1
@[simp] theorem perform_len (op : Op) (s : State) : (perform op s).len = s.len := (perform_fixed op s).2.2.2.1
@[simp] theorem perform_idx (op : Op) (s : State) : (perform op s).idx = s.idx := (perform_fixed op s).2.2.2.2.1
@[simp] theorem perform_rxq (op : Op) (s : State) : (perform op s).rxq = s.rxq := (perform_fixed op s).2.2.2.2.2.1
@[simp] theorem perform_obRdp (op : Op) (s : State) : (perform op s).obRdp = s.obRdp :=
  (perform_fixed op s).2.2.2.2.2.2.1
@[simp] theorem perform_dbgId (op : Op) (s : State) : (perform op s).dbgId = s.dbgId :=
  (perform_fixed op s).2.2.2.2.2.2.2

/-- No entry changes `STEP`: it is written by holds alone. -/
@[simp] theorem perform_step (op : Op) (s : State) : (perform op s).step = s.step := by
  cases op <;>
    simp [perform, primCrcReset, primCrcFeed, primCrcValue, primTxRead, primFlashUnlock, primFlashLock,
      primEraseSector, primMassErase, primProgramByte, primBusWrite, primBusRead, primOptUnlock, primOptLock,
      primWaitOptIdle, primOptClearOptlock, primOptWriteNwrp, primOptSetOptstrt, primOptReadNwrp, primObReadRdp,
      primDbgIdRead, primGo, optComplete] <;>
    (try split) <;> simp

/-- No entry changes how many more primitives the environment completes; completing one does. -/
@[simp] theorem perform_grant (op : Op) (s : State) : (perform op s).env.grant = s.env.grant := by
  cases op <;>
    simp [perform, primCrcReset, primCrcFeed, primCrcValue, primTxRead, primFlashUnlock, primFlashLock,
      primEraseSector, primMassErase, primProgramByte, primBusWrite, primBusRead, primOptUnlock, primOptLock,
      primWaitOptIdle, primOptClearOptlock, primOptWriteNwrp, primOptSetOptstrt, primOptReadNwrp, primObReadRdp,
      primDbgIdRead, primGo, optComplete] <;>
    (try split) <;> simp

@[simp] theorem perform_memKeeps (op : Op) (s : State) : (perform op s).env.memKeeps = s.env.memKeeps := by
  cases op <;>
    simp [perform, primCrcReset, primCrcFeed, primCrcValue, primTxRead, primFlashUnlock, primFlashLock,
      primEraseSector, primMassErase, primProgramByte, primBusWrite, primBusRead, primOptUnlock, primOptLock,
      primWaitOptIdle, primOptClearOptlock, primOptWriteNwrp, primOptSetOptstrt, primOptReadNwrp, primObReadRdp,
      primDbgIdRead, primGo, optComplete] <;>
    (try split) <;> simp

/-! ## The limit the environment sets -/

theorem takeFl_setGrant (g : Option Nat) (s : State) : takeFl (setGrant g s) = setGrant g (takeFl s) := by
  simp only [takeFl, setGrant, Env.takeFl]
  cases s.env.flDraws <;> rfl

theorem takeOpt_setGrant (g : Option Nat) (s : State) : takeOpt (setGrant g s) = setGrant g (takeOpt s) := by
  simp only [takeOpt, setGrant, Env.takeOpt]
  cases s.env.optDraws <;> rfl

theorem busTaken_setGrant (a : Word) (g : Option Nat) (s : State) :
    busTaken a (setGrant g s) = setGrant g (busTaken a s) := by
  have hr : ({ s.env with grant := g }).takeRd = { s.env.takeRd with grant := g } := by
    simp only [Env.takeRd]
    cases s.env.rdDraws <;> rfl
  by_cases h : (s.mem.read? a.toNat).isSome = true <;> simp [busTaken, setGrant, h, hr]

/-- No entry looks at how many more primitives the environment completes. -/
theorem perform_setGrant (op : Op) (g : Option Nat) (s : State) :
    perform op (setGrant g s) = setGrant g (perform op s) := by
  cases op with
  | eraseSector sec =>
    show (if eraseGoesOn s then primEraseSector sec (setGrant g s) else setGrant g s) = setGrant g (if _ then _ else _)
    cases eraseGoesOn s
    · rfl
    · show primEraseSector sec (setGrant g s) = setGrant g (primEraseSector sec s)
      simp only [primEraseSector, takeFl_setGrant]
      rfl
  | massErase => simp only [perform, primMassErase, takeFl_setGrant]; rfl
  | programByte addr d =>
    simp only [perform, primProgramByte, takeFl_setGrant]
    rfl
  | busRead addr => simp only [perform, primBusRead, busTaken_setGrant]; rfl
  | waitOptIdle =>
    simp only [perform, primWaitOptIdle, takeOpt_setGrant]
    show emit .optWait (if s.optBusy then _ else _) = _
    cases s.optBusy <;> rfl
  | optSetOptstrt =>
    by_cases h : s.optctl.optlock = true <;> simp [perform, primOptSetOptstrt, setGrant, h, emit]
  | txNackIfBad =>
    show (if s.crcOk then setGrant g s else primTx 0x7F#8 (setGrant g s)) = setGrant g (if s.crcOk then _ else _)
    cases s.crcOk <;> rfl
  | _ => rfl

/-! ## The unheld run -/

/-- The entries of a list, each performed. -/
def performAll : List Op → State → State
  | [], s => s
  | op :: ops, s => performAll ops (perform op s)

@[simp] theorem performAll_nil (s : State) : performAll [] s = s := rfl

@[simp] theorem performAll_cons (op : Op) (ops : List Op) (s : State) :
    performAll (op :: ops) s = performAll ops (perform op s) := rfl

@[simp] theorem performAll_append (as bs : List Op) (s : State) :
    performAll (as ++ bs) s = performAll bs (performAll as s) := by
  induction as generalizing s with
  | nil => rfl
  | cons op as ih => exact ih _

@[simp] theorem performAll_grant (ops : List Op) (s : State) : (performAll ops s).env.grant = s.env.grant := by
  induction ops generalizing s with
  | nil => rfl
  | cons op ops ih => rw [performAll_cons, ih, perform_grant]

/-- A list whose first part has no wait runs on with the rest, in an environment that sets no limit. -/
theorem run_append (as bs : List Op) (s : State) (hg : s.env.grant = none) (hw : Op.waitOptIdle ∉ as) :
    run (as ++ bs) s = run bs (performAll as s) := by
  induction as generalizing s with
  | nil => rfl
  | cons op as ih =>
    rw [List.cons_append, run_cons_free hg (waitsOn_of_ne (fun h => hw (h ▸ List.mem_cons_self)) s)]
    exact ih _ (by simpa using hg) fun h => hw (List.mem_cons_of_mem _ h)

/-- In an environment that sets no limit, a list with no wait performs all its entries. -/
theorem run_free (ops : List Op) (s : State) (hg : s.env.grant = none) (hw : Op.waitOptIdle ∉ ops) :
    run ops s = performAll ops s := by
  have h := run_append ops [] s hg hw
  rwa [List.append_nil] at h

/-- The same of a handler. -/
theorem startHandler_free (ops : List Op) (s : State) (hg : s.env.grant = none) (hw : Op.waitOptIdle ∉ ops) :
    startHandler ops s = performAll ops { s with ph := .exec, step := [] } :=
  run_free _ _ hg hw

/-- Transmitting a sequence of bytes. -/
theorem performAll_txs (bs : List Byte) (s : State) :
    performAll (bs.map Op.tx) s = { s with txq := s.txq ++ bs, trace := s.trace ++ txs bs } := by
  induction bs generalizing s with
  | nil => simp [txs]
  | cons b bs ih =>
    rw [List.map_cons, performAll_cons, ih]
    simp [perform, primTx, emit, txs]

/-! ## What no run changes -/

theorem run_fixed (ops : List Op) (s : State) :
    (run ops s).cfg = s.cfg ∧ (run ops s).rstN = s.rstN ∧ (run ops s).fb = s.fb ∧ (run ops s).len = s.len ∧
    (run ops s).idx = s.idx ∧ (run ops s).rxq = s.rxq ∧ (run ops s).obRdp = s.obRdp ∧
    (run ops s).dbgId = s.dbgId :=
  run_induction
    (P := fun t => t.cfg = s.cfg ∧ t.rstN = s.rstN ∧ t.fb = s.fb ∧ t.len = s.len ∧ t.idx = s.idx ∧ t.rxq = s.rxq ∧
      t.obRdp = s.obRdp ∧ t.dbgId = s.dbgId)
    (fun _ _ h => h) (fun _ h => h) ops s (fun _ t h => by simpa using h) (fun op _ t h => by simpa using h)
    ⟨rfl, rfl, rfl, rfl, rfl, rfl, rfl, rfl⟩

/-- Every meaning runs the handler's list from phase EXEC. -/
theorem exec_eq (i : Instr) (s : State) : exec i s = .next (startHandler (handlerOps s.cfg i) s) := by
  cases i <;> rfl

/-- A relation between the state before and every state on the way holds of the state a command answers, wherever it
holds: it is enough that each entry of the command's list keeps it. -/
theorem exec_induction {R : State → State → Prop} {i : Instr} {s t : State} (ht : exec i s = .next t)
    (h0 : R s { s with ph := .exec, step := [] }) (hstep : ∀ a l, R s a → R s { a with step := l })
    (hspend : ∀ a, R s a → R s (spend a))
    (htake : Op.waitOptIdle ∈ handlerOps s.cfg i → ∀ a, R s a → R s (launchMoves a))
    (hp : ∀ op ∈ handlerOps s.cfg i, ∀ a, R s a → R s (perform op a)) : R s t := by
  rw [exec_eq] at ht
  injection ht with ht
  subst ht
  exact run_induction (P := R s) hstep hspend _ _ htake hp h0

/-- A step always answers a next state: the block neither faults nor refuses (R250, R255). -/
theorem step_next (s : State) : ∃ t, step s = .next t := by
  unfold step
  split
  · cases s.ph with
    | exec =>
      show ∃ t, stepExec s = .next t
      unfold stepExec
      split
      · split
        · exact ⟨_, exec_eq _ _⟩
        · exact ⟨_, rfl⟩
      · exact ⟨_, rfl⟩
    | _ => exact ⟨_, rfl⟩
  · exact ⟨_, rfl⟩

/-! ## Traces -/

/-- An entry only adds to the trace and to the transmitted bytes. -/
theorem perform_appends (op : Op) (s : State) :
    (∃ es, (perform op s).trace = s.trace ++ es) ∧ ∃ bs, (perform op s).txq = s.txq ++ bs := by
  cases op <;>
    simp [perform, primCrcReset, primCrcFeed, primCrcValue, primTxRead, primFlashUnlock, primFlashLock,
      primEraseSector, primMassErase, primProgramByte, primBusWrite, primBusRead, primOptUnlock, primOptLock,
      primWaitOptIdle, primOptClearOptlock, primOptWriteNwrp, primOptSetOptstrt, primOptReadNwrp, primObReadRdp,
      primDbgIdRead, primGo, optComplete] <;>
    (try split) <;> simp

end Sys2Proof.Machine
end

