-- ==== Sys2Proof/Laws/Stages.lean ====
section
/-! SUPPORT. What one entry of `STEP` does to a stage, and the entries a handler is made of. -/

namespace Sys2Proof.Machine

/-- An entry that has its place leads from its stage to the next. -/
theorem perform_stage {st st' : Stage} {op : Op} {s : State} (h : atStage st s) (hn : st.next op = some st') :
    atStage st' (perform op s) := by
  cases op <;> cases st <;> simp [Stage.next, moves, follow] at hn <;> subst hn <;>
    simp [atStage, optAtRest, optSettled, crcClean] at h ⊢ <;>
    simp [perform, primCrcReset, primCrcFeed, primCrcValue, primTxRead, primFlashUnlock, primFlashLock,
      primEraseSector, primMassErase, primProgramByte, primBusWrite, primBusRead, primOptUnlock, primOptLock,
      primWaitOptIdle, primOptClearOptlock, primOptWriteNwrp, primOptSetOptstrt, primOptReadNwrp, primObReadRdp,
      primDbgIdRead, primGo, optComplete, h] <;>
    (try split) <;> simp_all

/-- Completing one primitive leaves the stage. -/
theorem spend_stage {st : Stage} {s : State} (h : atStage st s) : atStage st (spend s) := by cases st <;> exact h

/-- So does the environment while an entry that has its place is held. -/
theorem whileHeld_stage {st st' : Stage} {op : Op} {s : State} (h : atStage st s) (hn : st.next op = some st') :
    atStage st (whileHeld op s) := by
  by_cases hop : op = .waitOptIdle
  · subst hop
    show atStage st (launchMoves s)
    rcases launchMoves_cases s with e | e | ⟨hb, -, e⟩ <;> rw [e]
    · exact h
    · cases st <;> exact h
    · cases st <;> simp [Stage.next, moves, follow] at hn <;>
        simp_all [atStage, optSettled, optComplete, crcClean]
  · rwa [whileHeld_of_ne hop]

/-- No entry has a place after the last. -/
theorem next_ended (op : Op) : Stage.ended.next op = none := by cases op <;> rfl

theorem stageRun_append {st st' : Stage} {as : List Op} (bs : List Op) (h : st.run as = some st') :
    st.run (as ++ bs) = st'.run bs := by
  induction as generalizing st with
  | nil => simpa [Stage.run] using congrArg (fun o => o.bind fun x => x.run bs) h
  | cons a as ih =>
    simp only [List.cons_append, Stage.run] at h ⊢
    cases hn : st.next a with
    | none => simp [hn] at h
    | some x =>
      simp only [hn] at h ⊢
      exact ih h

theorem mem_readTurns {op : Op} {addr : Word} {n : Nat} (h : op ∈ readTurns addr n) :
    op = .busRead addr ∨ op = .txRead := by
  induction n with
  | zero => simp [readTurns] at h
  | succ n ih =>
    simp only [readTurns, List.mem_cons] at h
    rcases h with h | h | h
    · exact .inl h
    · exact .inr h
    · exact ih h

/-- Every entry of a handler's list is one of phase EXEC. -/
theorem handlerOps_fit (c : Cfg) (i : Instr) : ∀ op ∈ handlerOps c i, fits .exec op = true := by
  intro op hop
  cases i with
  | memRead addr n =>
    simp only [handlerOps, memReadOps, ackHeader, List.mem_append, List.mem_cons, List.not_mem_nil, or_false] at hop
    rcases hop with (((rfl | rfl) | rfl) | h) | rfl
    · rfl
    · rfl
    · rfl
    · rcases mem_readTurns h with rfl | rfl <;> rfl
    · rfl
  | _ =>
    revert op
    rw [← List.all_eq_true]
    simp only [handlerOps, getHelpOps, getVersionOps, getChipIdOps, getReadoutProtectionStatusOps, otpReadOps,
      readSectorStatusOps, disableWriteProtectOps, memWriteOps, memWriteWork, flashEraseOps, flashEraseWork,
      goToAddressOps, enableWriteProtectOps, ackHeader, updateNwrp]
    repeat' split
    all_goals simp [fits, phasesOf]

end Sys2Proof.Machine
end

