-- ==== Sys2Proof/Tests/Slice0.lean ====
section
/-! SUPPORT. The model's own tests and the witnesses of the statements' hypotheses. Expected bytes and events are those of
spec/95_test_vectors.md, named in each docstring; each test is one step from a verified frame in `FB`. -/

namespace Sys2Proof.Tests

-- one theorem after another: many kernel evaluations at once need more memory for their stacks than a check is given
set_option Elab.async false

open Sys2Proof.Machine

/-! ## Helpers -/

/-- The state a step answers; the reset state where it answers none. -/
def after : Host.Outcome State Fault Refusal → State
  | .next t => t
  | .fault _ => State.reset
  | .refused _ => State.reset

/-- Every command answers a next state, on every path. -/
theorem exec_after (i : Instr) (s : State) : exec i s = .next (after (exec i s)) := by rw [exec_eq]; rfl

/-- So does every step. -/
theorem step_after (s : State) : step s = .next (after (step s)) := by
  obtain ⟨t, h⟩ := step_next s
  rw [h]; rfl

/-- The block awaiting a frame: the state after the first act after reset. -/
def idle : State := { State.reset with step := [] }

/-- The block with a verified frame in `FB`. -/
def verified (frame : List Byte) : State := State.reset.withFrame frame

/-- The block with a frame in `FB`, about to verify it. -/
def received (frame : List Byte) : State := { State.reset.withFrame frame with ph := .verify, crcOk := false }

/-- Phase, bytes transmitted and events of one step from a verified frame, with the environment as given. -/
def outcome (s : State) : Phase × List Byte × List Event :=
  ((after (step s)).ph, (after (step s)).txq, (after (step s)).trace)

/-- The environment draws these results for the next erase and program primitives. -/
def drawing (rs : List FlResult) (s : State) : State := { s with env := { s.env with flDraws := rs } }

/-- The environment completes a launch, or does not, at the next waits. -/
def launching (bs : List Bool) (s : State) : State := { s with env := { s.env with optDraws := bs } }

/-- The bus returns these bytes for unknown contents. -/
def returning (bs : List Byte) (s : State) : State := { s with env := { s.env with rdDraws := bs } }

/-! ## Well-formedness -/

/-- 245 data bytes fit a MemWrite frame, 246 do not (R104). -/
theorem test_wf_memWrite_bound :
    (Instr.memWrite 0x20000000 (List.replicate 245 0xAA)).wf = true ∧
    (Instr.memWrite 0x20000000 (List.replicate 246 0xAA)).wf = false := by decide +kernel

/-! ## Decoding: one word of the spec per constructor, and the raised kinds -/

/-- VI1. -/
theorem test_decode_getVersion :
    decode Config.refCfg [0x05, 0x51, 0xE7, 0xE9, 0xAB, 0x7C] = some (.ok .getVersion, []) := by decide +kernel

/-- VI2. -/
theorem test_decode_getHelp :
    decode Config.refCfg [0x05, 0x52, 0x3E, 0xCF, 0xE8, 0x71] = some (.ok .getHelp, []) := by decide +kernel

/-- VI3. -/
theorem test_decode_getChipId :
    decode Config.refCfg [0x05, 0x53, 0x89, 0xD2, 0x29, 0x75] = some (.ok .getChipId, []) := by decide +kernel

/-- VI5. -/
theorem test_decode_getReadoutProtectionStatus :
    decode Config.refCfg [0x05, 0x54, 0x8C, 0x82, 0x6E, 0x6B] = some (.ok .getReadoutProtectionStatus, []) := by
  decide +kernel

/-- VG1. -/
theorem test_decode_goToAddress :
    decode Config.refCfg [0x09, 0x55, 0x00, 0x80, 0x00, 0x08, 0x91, 0x65, 0x19, 0x3F]
      = some (.ok (.goToAddress 0x08008000), []) := by decide +kernel

/-- VE11. -/
theorem test_decode_flashErase :
    decode Config.refCfg [0x07, 0x56, 0x02, 0x03, 0xED, 0xE0, 0x5B, 0x04]
      = some (.ok (.flashErase 0x02 0x03), []) := by decide +kernel

/-- VW3. -/
theorem test_decode_memWrite :
    decode Config.refCfg
        [0x0D, 0x57, 0x00, 0x80, 0x00, 0x08, 0x03, 0x01, 0x02, 0x03, 0xBB, 0x36, 0x12, 0xF8]
      = some (.ok (.memWrite 0x08008000 [0x01, 0x02, 0x03]), []) := by decide +kernel

/-- VP5. -/
theorem test_decode_enableWriteProtect :
    decode Config.refCfg [0x07, 0x58, 0xFF, 0x01, 0xC5, 0xF7, 0xE3, 0x05]
      = some (.ok (.enableWriteProtect 0xFF 0x01), []) := by decide +kernel

/-- VR6. -/
theorem test_decode_memRead :
    decode Config.refCfg [0x0A, 0x59, 0x00, 0x00, 0x00, 0x20, 0xFF, 0x3F, 0x6A, 0x5F, 0x11]
      = some (.ok (.memRead 0x20000000 0xFF), []) := by decide +kernel

/-- VP7. -/
theorem test_decode_readSectorStatus :
    decode Config.refCfg [0x05, 0x5A, 0x86, 0x22, 0xE0, 0x57] = some (.ok .readSectorStatus, []) := by decide +kernel

/-- VI8. -/
theorem test_decode_otpRead :
    decode Config.refCfg [0x05, 0x5B, 0x31, 0x3F, 0x21, 0x53] = some (.ok .otpRead, []) := by decide +kernel

/-- VP6. -/
theorem test_decode_disableWriteProtect :
    decode Config.refCfg [0x05, 0x5C, 0x34, 0x6F, 0x66, 0x4D] = some (.ok .disableWriteProtect, []) := by decide +kernel

/-- VF5 (`LEN = 4` with a checksum that would match), VF14 (unassigned opcode and bad checksum), VF12, VW13 and VW14. -/
theorem test_decode_rejects :
    decode Config.refCfg [0x04, 0xA7, 0xAB, 0x00, 0xD4] = some (.error .malformedFrame, []) ∧
    decode Config.refCfg [0x05, 0x60, 0x3F, 0x99, 0x58, 0xAC] = some (.error .checksumMismatch, []) ∧
    decode Config.refCfg [0x05, 0x5D, 0x83, 0x72, 0xA7, 0x49] = some (.error .unsupportedOpcode, []) ∧
    decode Config.refCfg [0x0C, 0x57, 0x00, 0x01, 0x00, 0x20, 0x04, 0x11, 0x22, 0x81, 0x9A, 0x36, 0x94]
      = some (.error .badPayloadLength, []) ∧
    decode Config.refCfg [0x09, 0x57, 0x00, 0x01, 0x00, 0x20, 0xFD, 0x28, 0xBC, 0x9E]
      = some (.error .badPayloadLength, []) := by decide +kernel

/-- The check values of spec/95_test_vectors.md 2.1. -/
theorem test_crc_check_values :
    crcOf Config.refCfg [] = 0xFFFFFFFF ∧ crcOf Config.refCfg [0x00] = 0xC704DD7B ∧
    crcOf Config.refCfg [0x05, 0x51] = 0x7CABE9E7 ∧
    crcOf Config.refCfg [0x09, 0x55, 0x00, 0x80, 0x00, 0x08] = 0x3F196591 := by decide +kernel

/-- The encoder against the vectors VW3 and VF16. -/
theorem test_encode :
    encode Config.refCfg (.memWrite 0x08008000 [0x01, 0x02, 0x03])
      = [0x0D, 0x57, 0x00, 0x80, 0x00, 0x08, 0x03, 0x01, 0x02, 0x03, 0xBB, 0x36, 0x12, 0xF8] ∧
    encodeWith Config.refCfg .getVersion [0xAA, 0xBB] = [0x07, 0x51, 0xAA, 0xBB, 0x62, 0xEC, 0xF4, 0x07] := by
  decide +kernel

/-- Every row of the opcode table is decoded and runs as the first command after reset. -/
theorem test_table_words :
    decodeTableWord 8 0x51 = some .getVersion ∧ decodeTableWord 8 0x56 = some (.flashErase 0 0) ∧
    decodeTableWord 8 0x57 = some (.memWrite 0 []) ∧ decodeTableWord 8 0x5C = some .disableWriteProtect ∧
    decodeTableWord 8 0x50 = none := by decide +kernel

/-! ## The classifier (VC1 to VC14) -/

theorem test_classify :
    classify Config.refCfg 0x07FFFFFF = .invalid ∧ classify Config.refCfg 0x08000000 = .programMemory ∧
    classify Config.refCfg 0x0807FFFF = .programMemory ∧ classify Config.refCfg 0x08080000 = .invalid ∧
    classify Config.refCfg 0x1FFFFFFF = .invalid ∧ classify Config.refCfg 0x20000000 = .volatileMemory ∧
    classify Config.refCfg 0x2001FFFF = .volatileMemory ∧ classify Config.refCfg 0x20020000 = .invalid ∧
    classify Config.refCfg 0x00000000 = .invalid ∧ classify Config.refCfg 0xFFFFFFFF = .invalid := by decide +kernel

/-! ## One step per command -/

/-- VI1. -/
theorem test_getVersion :
    outcome (verified [0x05, 0x51, 0xE7, 0xE9, 0xAB, 0x7C])
      = (.rxLen, [0xA5, 0x01, 0x10], [.tx 0xA5, .tx 0x01, .tx 0x10]) := by decide +kernel

/-- VI2. -/
theorem test_getHelp :
    (outcome (verified [0x05, 0x52, 0x3E, 0xCF, 0xE8, 0x71])).2.1
      = [0xA5, 0x0C, 0x51, 0x52, 0x53, 0x54, 0x55, 0x56, 0x57, 0x58, 0x59, 0x5A, 0x5B, 0x5C] := by decide +kernel

/-- VI3. -/
theorem test_getChipId :
    outcome (verified [0x05, 0x53, 0x89, 0xD2, 0x29, 0x75])
      = (.rxLen, [0xA5, 0x02, 0x21, 0x04],
          [.tx 0xA5, .tx 0x02, .dbgIdRead 0x10006421, .tx 0x21, .tx 0x04]) := by decide +kernel

/-- VI4: all bits of the debug-ID field set. -/
theorem test_getChipId_masked :
    (outcome { verified [0x05, 0x53, 0x89, 0xD2, 0x29, 0x75] with dbgId := 0xFFFFFFFF }).2.1
      = [0xA5, 0x02, 0xFF, 0x0F] := by decide +kernel

/-- VI6. -/
theorem test_getReadoutProtectionStatus :
    outcome { verified [0x05, 0x54, 0x8C, 0x82, 0x6E, 0x6B] with obRdp := 0xCC }
      = (.rxLen, [0xA5, 0x01, 0xCC], [.tx 0xA5, .tx 0x01, .obRdpRead 0xCC, .tx 0xCC]) := by decide +kernel

/-- VG4: an odd address. -/
theorem test_goToAddress :
    outcome (verified [0x09, 0x55, 0x01, 0x80, 0x00, 0x08, 0x94, 0x33, 0xBD, 0xD7])
      = (.dead, [0xA5, 0x01, 0x00], [.tx 0xA5, .tx 0x01, .tx 0x00, .go 0x08008002]) := by decide +kernel

/-- VG6: one past the end of program memory. -/
theorem test_goToAddress_invalid :
    outcome (verified [0x09, 0x55, 0x00, 0x00, 0x08, 0x08, 0x7F, 0xBC, 0xD8, 0xBC])
      = (.rxLen, [0xA5, 0x01, 0x01], [.tx 0xA5, .tx 0x01, .tx 0x01]) := by decide +kernel

/-- VE11: sector 3 fails, sector 4 is not attempted. -/
theorem test_flashErase_failing_sector :
    outcome (drawing [.pass, .fail, .pass] (verified [0x07, 0x56, 0x02, 0x03, 0xED, 0xE0, 0x5B, 0x04]))
      = (.rxLen, [0xA5, 0x01, 0x01],
          [.tx 0xA5, .tx 0x01, .flUnlock, .flErase 2 .pass, .flErase 3 .fail, .flLock, .tx 0x01]) := by decide +kernel

/-- VE1: the clamp. -/
theorem test_flashErase_clamp :
    outcome (drawing [.pass, .pass] (verified [0x07, 0x56, 0x06, 0x05, 0xDC, 0x2E, 0x29, 0x3E]))
      = (.rxLen, [0xA5, 0x01, 0x00],
          [.tx 0xA5, .tx 0x01, .flUnlock, .flErase 6 .pass, .flErase 7 .pass, .flLock, .tx 0x00]) := by decide +kernel

/-- VW3: the second byte fails and the third is still attempted. -/
theorem test_memWrite_failing_byte :
    outcome (drawing [.pass, .fail, .pass]
        (verified [0x0D, 0x57, 0x00, 0x80, 0x00, 0x08, 0x03, 0x01, 0x02, 0x03, 0xBB, 0x36, 0x12, 0xF8]))
      = (.rxLen, [0xA5, 0x01, 0x01],
          [.tx 0xA5, .tx 0x01, .flUnlock, .flProg 0x08008000 1 .pass, .flProg 0x08008001 2 .fail,
            .flProg 0x08008002 3 .pass, .flLock, .tx 0x01]) := by decide +kernel

/-- VW10: past the end of volatile memory; the byte inside is stored, the byte outside is not known. -/
theorem test_memWrite_overrun :
    outcome (verified [0x0C, 0x57, 0xFF, 0xFF, 0x01, 0x20, 0x02, 0xAA, 0xBB, 0xE7, 0xBD, 0xF7, 0x86])
      = (.rxLen, [0xA5, 0x01, 0x00],
          [.tx 0xA5, .tx 0x01, .memWr 0x2001FFFF 0xAA, .memWr 0x20020000 0xBB, .tx 0x00]) ∧
    (after (step (verified
        [0x0C, 0x57, 0xFF, 0xFF, 0x01, 0x20, 0x02, 0xAA, 0xBB, 0xE7, 0xBD, 0xF7, 0x86]))).mem
      = [(0x2001FFFF, 0xAA)] := by decide +kernel

/-- VP1: the mask is stored complemented. -/
theorem test_enableWriteProtect :
    outcome (launching [true] (verified [0x07, 0x58, 0x05, 0x01, 0x98, 0x35, 0xF9, 0x5D]))
      = (.rxLen, [0xA5, 0x01, 0x00],
          [.tx 0xA5, .tx 0x01, .optUnlock, .optWait, .optctlOptlock0, .optctlNwrp 0xFA, .optctlOptstrt1,
            .envOptComplete, .optWait, .optLock, .tx 0x00]) := by decide +kernel

/-- VP9: the controller never completes; the block holds in the second wait. -/
theorem test_enableWriteProtect_hold :
    outcome (launching [false] (verified [0x07, 0x58, 0x05, 0x01, 0x98, 0x35, 0xF9, 0x5D]))
      = (.exec, [0xA5, 0x01],
          [.tx 0xA5, .tx 0x01, .optUnlock, .optWait, .optctlOptlock0, .optctlNwrp 0xFA, .optctlOptstrt1]) := by
  decide +kernel

/-- VR4: the addresses wrap, and the bytes are whatever the bus returns. -/
theorem test_memRead_wraps :
    outcome (returning [0x11, 0x22] (verified [0x0A, 0x59, 0xFF, 0xFF, 0xFF, 0xFF, 0x02, 0x2F, 0xEE, 0xC1, 0x5E]))
      = (.rxLen, [0xA5, 0x02, 0x11, 0x22],
          [.tx 0xA5, .tx 0x02, .memRd 0xFFFFFFFF 0x11, .tx 0x11, .memRd 0x00000000 0x22, .tx 0x22]) := by decide +kernel

/-- VP7: the raw byte. -/
theorem test_readSectorStatus :
    (outcome { verified [0x05, 0x5A, 0x86, 0x22, 0xE0, 0x57] with
        optctl := { optlock := true, optstrt := false, nwrp := 0xFA }, obNwrp := 0xFA }).2.1
      = [0xA5, 0x01, 0xFA] := by decide +kernel

/-- VI9: the payload is ignored. -/
theorem test_otpRead :
    outcome (verified [0x08, 0x5B, 0x01, 0x02, 0x03, 0x8B, 0x60, 0xC8, 0x9F])
      = (.rxLen, [0xA5, 0x01, 0x00], [.tx 0xA5, .tx 0x01, .tx 0x00]) := by decide +kernel

/-- VP6, from a mask that protects sectors 0 and 2. -/
theorem test_disableWriteProtect :
    (after (step (launching [true] { verified [0x05, 0x5C, 0x34, 0x6F, 0x66, 0x4D] with
        optctl := { optlock := true, optstrt := false, nwrp := 0xFA }, obNwrp := 0xFA }))).obNwrp = 0xFF := by
  decide +kernel

/-- VF10, VF15, VF5 and VF6: the four raised kinds. -/
theorem test_raised_kinds :
    (outcome (verified [0x05, 0x60, 0xC0, 0x99, 0x58, 0xAC])).2.1 = [0xA5, 0x01, 0x02] ∧
    (outcome (verified [0x07, 0x55, 0x00, 0x80, 0xDD, 0x0A, 0xCE, 0xE0])).2.1 = [0xA5, 0x01, 0x03] ∧
    outcome (received [0x04, 0xA7, 0xAB, 0x00, 0xD4]) = (.rxLen, [0x7F], [.tx 0x7F]) ∧
    outcome (received [0x05, 0x52, 0xE7, 0xE9, 0xAB, 0x7C])
      = (.rxLen, [0x7F], [.crcFeed 0x05, .crcFeed 0x52, .crcRead 0x71E8CF3E, .crcReset, .tx 0x7F]) := by decide +kernel

/-- VF1: the verification of a good frame. -/
theorem test_verify :
    outcome (received [0x05, 0x51, 0xE7, 0xE9, 0xAB, 0x7C])
      = (.exec, [], [.crcFeed 0x05, .crcFeed 0x51, .crcRead 0x7CABE9E7, .crcReset]) := by decide +kernel

/-- Reset in the middle of a launch, and the first act after it (R281, R282). -/
theorem test_reset :
    (after (step { verified [0x05, 0x51, 0xE7, 0xE9, 0xAB, 0x7C] with rstN := false, obNwrp := 0xFA, flLocked := false })).optctl
      = { optlock := true, optstrt := false, nwrp := 0xFA } ∧
    outcome State.reset = (.rxLen, [], [.crcReset]) := by decide +kernel

/-! ## Witnesses: a concrete state and operands that meet the hypotheses of each statement -/

/-- A state at rest with nothing left to do is orderly. -/
theorem orderly_of_rest {s : State} (hs : s.step = []) (hw : s.mem.wf = true) (h : atStage .rest s) : Orderly s :=
  ⟨.rest, hw, by rw [hs]; rfl, h, by rw [hs]; rfl⟩

/-- The block at rest, awaiting a frame. -/
theorem orderly_idle : Orderly idle := orderly_of_rest rfl rfl ⟨rfl, rfl, rfl, rfl, rfl, rfl⟩

/-- The block three bytes into the frame `07 56 06 …` (VF19). -/
def midFrame : State :=
  { idle with ph := .rxBody, fb := storeBytes idle.fb 0 [0x07, 0x56, 0x06], len := 0x07, idx := 3 }

theorem orderly_midFrame : Orderly midFrame := orderly_of_rest rfl rfl ⟨rfl, rfl, rfl, rfl, rfl, rfl⟩

theorem orderly_received (frame : List Byte) : Orderly (received frame) :=
  orderly_of_rest rfl rfl ⟨rfl, rfl, rfl, rfl, rfl, rfl⟩

theorem orderly_verified (frame : List Byte) : Orderly (verified frame) :=
  orderly_of_rest rfl rfl ⟨rfl, rfl, rfl, rfl, rfl, rfl⟩

/-- The block after a hand-over. -/
def handedOver : State := { idle with ph := .dead }

theorem orderly_handedOver : Orderly handedOver := orderly_of_rest rfl rfl ⟨rfl, rfl, rfl, rfl, rfl, rfl⟩

/-- The frame VF1, GetVersion. -/
def frameVF1 : List Byte := [0x05, 0x51, 0xE7, 0xE9, 0xAB, 0x7C]

/-- A frame under the reference configuration. -/
def framed (opc : Byte) (payload : List Byte) : List Byte := frameOf Config.refCfg opc payload

/-- The shortest payload, the longest data, and the longest excess. -/
theorem witness_DecodeEncodeRoundTrip :
    (Instr.getVersion.wf = true ∧ (operandBytes .getVersion ++ []).length ≤ 250) ∧
    ((Instr.memWrite 0x20000100 (List.replicate 245 0)).wf = true ∧
      (operandBytes (.memWrite 0x20000100 (List.replicate 245 0)) ++ []).length ≤ 250) ∧
    (Instr.otpRead.wf = true ∧ (operandBytes .otpRead ++ List.replicate 250 0).length ≤ 250) := by decide +kernel

theorem witness_DecodedCommandStandsInFrame :
    (framed 0x57 [0x00, 0x01, 0x00, 0x20, 0x01, 0x11, 0x22]).length ≤ 256 ∧
    decodeBody (framed 0x57 [0x00, 0x01, 0x00, 0x20, 0x01, 0x11, 0x22]) = .ok (.memWrite 0x20000100 [0x11]) := by
  decide +kernel

/-- One frame per clause; the data clause at `DLEN = 0` and at `DLEN = 245`. -/
theorem witness_OperandsAreTheLatches :
    (5 ≤ (verified frameVF1).len.toNat) ∧
    decodeBody (verified (framed 0x55 [0x00, 0x80, 0x00, 0x08])).frame = .ok (.goToAddress 0x08008000) ∧
    decodeBody (verified (framed 0x56 [0x06, 0x05])).frame = .ok (.flashErase 0x06 0x05) ∧
    decodeBody (verified (framed 0x57 [0x00, 0x01, 0x00, 0x20, 0x00])).frame = .ok (.memWrite 0x20000100 []) ∧
    decodeBody (verified (framed 0x57 ([0x00, 0x01, 0x00, 0x20, 0xF5] ++ List.replicate 245 0x5A))).frame
      = .ok (.memWrite 0x20000100 (List.replicate 245 0x5A)) ∧
    decodeBody (verified (framed 0x58 [0x05, 0x01])).frame = .ok (.enableWriteProtect 0x05 0x01) ∧
    decodeBody (verified (framed 0x59 [0x00, 0x00, 0x00, 0x08, 0x04])).frame = .ok (.memRead 0x08000000 0x04) := by
  decide +kernel

theorem witness_ReferenceCrcDetectsOneByte : Config.refCfg.crcUnit = .reference := rfl

/-- The first and the last byte of the window, and the last byte of the checksum. -/
theorem witness_CorruptedByteIsRejected :
    4 ≤ frameVF1.length ∧ Config.refCfg.crcUnit = .reference ∧ verifies Config.refCfg frameVF1 = true ∧
    (0 < frameVF1.length ∧ byteAt frameVF1 0 ≠ 0x06) ∧ (1 < frameVF1.length ∧ byteAt frameVF1 1 ≠ 0x52) ∧
    (5 < frameVF1.length ∧ byteAt frameVF1 5 ≠ 0x7D) := by decide +kernel

/-- A length byte, and the length byte 0. -/
theorem witness_LengthByteIsTaken :
    idle.rxq = [] ∧ idle.rstN = true ∧ idle.ph = .rxLen ∧ idle.step = [] ∧ idle.env.grant = none ∧
    (hostSends [0x05, 0x51] idle).rxq = 0x05 :: [0x51] ∧ (hostSends [0x00] idle).rxq = 0x00 :: [] := by decide +kernel

/-- The five bytes that are missing in VF19, and the one byte missing of the longest frame. -/
theorem witness_FrameBodyIsTaken :
    (midFrame.rstN = true ∧ midFrame.ph = .rxBody ∧ midFrame.env.grant = none ∧
      midFrame.idx.toNat < midFrame.frameSize ∧ midFrame.rxq = [] ∧
      midFrame.idx.toNat + [0x05, 0x51, 0xE7, 0xE9, (0xAB : Byte)].length = midFrame.frameSize ∧
      (hostSends [0x05, 0x51, 0xE7, 0xE9, 0xAB, 0x7C] midFrame).rxq = [0x05, 0x51, 0xE7, 0xE9, 0xAB] ++ [0x7C]) ∧
    ({ midFrame with len := 0xFF, idx := 255 } : State).idx.toNat + [(0x00 : Byte)].length
      = ({ midFrame with len := 0xFF, idx := 255 } : State).frameSize := by decide +kernel

/-- `LEN = 0` and `LEN = 4`. -/
theorem witness_MalformedFrameGetsNack :
    ((received [0x00]).rstN = true ∧ (received [0x00]).ph = .verify ∧ (received [0x00]).step = [] ∧
      (received [0x00]).env.grant = none ∧ (received [0x00]).fbAt 0 = (received [0x00]).len ∧
      (received [0x00]).len.toNat ≤ 4) ∧
    ((received [0x04, 0xA7, 0xAB, 0x00, 0xD4]).fbAt 0 = (received [0x04, 0xA7, 0xAB, 0x00, 0xD4]).len ∧
      (received [0x04, 0xA7, 0xAB, 0x00, 0xD4]).len.toNat ≤ 4) := by decide +kernel

/-- A frame that passes (VF1) and one that does not (VF7), both at `LEN = 5`. -/
theorem witness_VerdictIsTheChecksum :
    (let s := received frameVF1
     s.rstN = true ∧ s.ph = .verify ∧ s.step = [] ∧ s.env.grant = none ∧ s.fbAt 0 = s.len ∧ 5 ≤ s.len.toNat ∧
      s.crcAcc = s.cfg.crcInit ∧
      crcOf s.cfg (s.fb.toList.take (s.len.toNat - 3))
        = le32 (s.fbAt (s.len.toNat - 3)) (s.fbAt (s.len.toNat - 2)) (s.fbAt (s.len.toNat - 1)) (s.fbAt s.len.toNat)) ∧
    (let s := received [0x05, 0x51, 0xE7, 0xE9, 0xAB, 0x7D]
     s.fbAt 0 = s.len ∧ 5 ≤ s.len.toNat ∧ s.crcAcc = s.cfg.crcInit ∧
      crcOf s.cfg (s.fb.toList.take (s.len.toNat - 3))
        ≠ le32 (s.fbAt (s.len.toNat - 3)) (s.fbAt (s.len.toNat - 2)) (s.fbAt (s.len.toNat - 1)) (s.fbAt s.len.toNat)) := by
  decide +kernel

theorem witness_StepRunsDecodedCommand :
    (verified frameVF1).rstN = true ∧ (verified frameVF1).ph = .exec ∧ (verified frameVF1).step = [] ∧
    decodeBody (verified frameVF1).frame = .ok .getVersion := by decide +kernel

theorem witness_SentCommandIsRun :
    (Instr.flashErase 0x06 0x05).wf = true ∧ (operandBytes (.flashErase 0x06 0x05) ++ [0xA5]).length ≤ 250 ∧
    idle.rstN = true ∧ idle.ph = .rxLen ∧ idle.step = [] ∧ idle.env.grant = none ∧ idle.crcAcc = idle.cfg.crcInit ∧
    (hostSends [0x08, 0x56, 0x06, 0x05, 0xA5, 0x99, 0x6E, 0x02, 0x2E] idle).rxq
      = [0x08, 0x56, 0x06, 0x05, 0xA5, 0x99, 0x6E, 0x02, 0x2E] ++ [] := by decide +kernel

/-- The excess byte of the witness above is a payload byte; the frame of VE17 is `encodeWith` of it. -/
theorem witness_SentCommandIsRun_frame :
    (hostSends (encodeWith idle.cfg (.flashErase 0x06 0x05) [0xA5]) idle).rxq
      = encodeWith idle.cfg (.flashErase 0x06 0x05) [0xA5] ++ [] := by decide +kernel

/-- The opcodes just below and just above the assigned ones. -/
theorem witness_UnassignedOpcodeIsReported :
    (let s := verified (framed 0x50 [])
     s.rstN = true ∧ s.ph = .exec ∧ s.step = [] ∧ s.env.grant = none ∧ 5 ≤ s.len.toNat ∧
      s.latchOpc ∉ Config.opcodeValues) ∧
    (verified (framed 0x5D [])).latchOpc ∉ Config.opcodeValues := by decide +kernel

/-- One byte short in each format, and the exact length. -/
theorem witness_PayloadLengthDecides :
    (let s := verified (framed 0x55 [0x00, 0x80, 0x00])
     s.rstN = true ∧ s.ph = .exec ∧ s.step = [] ∧ 5 ≤ s.len.toNat ∧ s.latchOpc ∈ Config.opcodeValues ∧
      s.env.grant = none ∧ s.latchOpc = 0x55#8 ∧ s.latchPlen < 4) ∧
    (let s := verified (framed 0x56 [0x06])
     s.latchOpc ∈ Config.opcodeValues ∧ s.latchOpc = 0x56#8 ∧ s.latchPlen < 2) ∧
    (let s := verified (framed 0x58 [0x05])
     s.latchOpc ∈ Config.opcodeValues ∧ s.latchOpc = 0x58#8 ∧ s.latchPlen < 2) ∧
    (let s := verified (framed 0x59 [0x00, 0x00, 0x00, 0x08])
     s.latchOpc ∈ Config.opcodeValues ∧ s.latchOpc = 0x59#8 ∧ s.latchPlen < 5) ∧
    (let s := verified (framed 0x57 [0x00, 0x00, 0x00, 0x08])
     s.latchOpc ∈ Config.opcodeValues ∧ s.latchOpc = 0x57#8 ∧ s.latchPlen < 5) ∧
    (let s := verified (framed 0x57 [0x00, 0x00, 0x00, 0x08, 0x02, 0x11])
     s.latchOpc ∈ Config.opcodeValues ∧ s.latchOpc = 0x57#8 ∧ s.latchPlen < 5 + s.latchDlen.toNat) ∧
    (let s := verified (framed 0x57 [0x00, 0x00, 0x00, 0x08, 0x01, 0x11])
     s.latchOpc ∈ Config.opcodeValues ∧ s.latchOpc = 0x57#8 ∧ ¬ s.latchPlen < 5 ∧
      ¬ s.latchPlen < 5 + s.latchDlen.toNat) := by decide +kernel

/-- For `VersionAndStubAreAnswered`, `GetChipIdAnswers`, `GetReadoutProtectionStatusAnswers`, `ReadSectorStatusAnswers` and
`MassEraseIsOnePrimitive`, whose one hypothesis it is. -/
theorem witness_unlimited_environment : idle.env.grant = none := rfl

theorem witness_GetHelpAnswers : idle.cfg.valid = true ∧ idle.env.grant = none := by decide +kernel

theorem witness_ClassifierIsTheTwoRanges : Config.refCfg.valid = true := by decide +kernel

/-- The ends of the two regions, and one past the end of program memory. -/
theorem witness_GoToAddressTransfers :
    idle.env.grant = none ∧ classify idle.cfg 0x0807FFFF ≠ .invalid ∧ classify idle.cfg 0x2001FFFF ≠ .invalid ∧
    classify idle.cfg 0x08080000 = .invalid := by decide +kernel

theorem witness_DeadUntilReset :
    handedOver.ph = .dead ∧ handedOver.rstN = true ∧ (setRstN false handedOver).ph = .dead ∧
    (setRstN false handedOver).rstN = false := by decide +kernel

/-- Count and start sector one above the largest allowed. -/
theorem witness_EraseOutOfRangeTouchesNothing :
    idle.cfg.valid = true ∧ idle.env.grant = none ∧ (0x09#8 : Byte) ≠ 0xFF#8 ∧
    idle.cfg.maxSectors.toNat < (0x09#8 : Byte).toNat ∧ idle.cfg.maxSectors.toNat ≤ (0x08#8 : Byte).toNat := by
  decide +kernel

/-- The clamped range of VE1, all sectors (VE8), and no sector (VE13). -/
theorem witness_EraseRunsTheClampedRange :
    idle.cfg.valid = true ∧ idle.env.grant = none ∧
    ((0x05#8 : Byte).toNat ≤ idle.cfg.maxSectors.toNat ∧ (0x06#8 : Byte).toNat < idle.cfg.maxSectors.toNat ∧
      (drawing (List.replicate 2 .pass) idle).env.flDraws
        = List.replicate (min (0x05#8 : Byte).toNat (idle.cfg.maxSectors.toNat - (0x06#8 : Byte).toNat)) .pass ++ []) ∧
    ((0x08#8 : Byte).toNat ≤ idle.cfg.maxSectors.toNat ∧ (0x00#8 : Byte).toNat < idle.cfg.maxSectors.toNat ∧
      (drawing (List.replicate 8 .pass) idle).env.flDraws
        = List.replicate (min (0x08#8 : Byte).toNat (idle.cfg.maxSectors.toNat - (0x00#8 : Byte).toNat)) .pass ++ []) ∧
    ((0x00#8 : Byte).toNat ≤ idle.cfg.maxSectors.toNat ∧ (0x03#8 : Byte).toNat < idle.cfg.maxSectors.toNat ∧
      idle.env.flDraws
        = List.replicate (min (0x00#8 : Byte).toNat (idle.cfg.maxSectors.toNat - (0x03#8 : Byte).toNat)) .pass ++ []) := by
  decide +kernel

/-- The second of three sectors fails (VE11), and the first (VE12). -/
theorem witness_EraseStopsAtTheFirstFailure :
    idle.cfg.valid = true ∧ idle.env.grant = none ∧ (0x03#8 : Byte).toNat ≤ idle.cfg.maxSectors.toNat ∧
    (0x02#8 : Byte).toNat < idle.cfg.maxSectors.toNat ∧
    1 < min (0x03#8 : Byte).toNat (idle.cfg.maxSectors.toNat - (0x02#8 : Byte).toNat) ∧
    (drawing [.pass, .fail] idle).env.flDraws = List.replicate 1 .pass ++ .fail :: [] ∧
    (drawing [.fail] idle).env.flDraws = List.replicate 0 .pass ++ .fail :: [] := by decide +kernel

theorem witness_ErasedSectorsExist :
    idle.cfg.valid = true ∧ exec (.flashErase 0x06 0x05) (drawing [.pass, .pass] idle)
      = .next (after (exec (.flashErase 0x06 0x05) (drawing [.pass, .pass] idle))) :=
  ⟨by decide +kernel, exec_after _ _⟩

theorem witness_WriteToInvalidAddressWritesNothing :
    idle.env.grant = none ∧ classify idle.cfg 0x08080000 = .invalid ∧ classify idle.cfg 0x07FFFFFF = .invalid := by
  decide +kernel

/-- VW3, and no data (VW6). -/
theorem witness_ProgramWriteAttemptsEveryByte :
    idle.env.grant = none ∧ classify idle.cfg 0x08008000 = .programMemory ∧
    ((Instr.memWrite 0x08008000 [0x01, 0x02, 0x03]).wf = true ∧
      [FlResult.pass, .fail, .pass].length = [(0x01 : Byte), 0x02, 0x03].length ∧
      (drawing [.pass, .fail, .pass] idle).env.flDraws = [.pass, .fail, .pass] ++ []) ∧
    ((Instr.memWrite 0x08008000 []).wf = true ∧ idle.env.flDraws = [] ++ []) := by decide +kernel

theorem witness_VolatileWriteCopiesEveryByte :
    idle.env.grant = none ∧ (Instr.memWrite 0x2001FFFF [0xAA, 0xBB]).wf = true ∧
    classify idle.cfg 0x2001FFFF = .volatileMemory := by decide +kernel

/-- The last two bytes of volatile memory. -/
theorem witness_WrittenBytesReadBack :
    (idle.env.grant = none ∧ idle.env.memKeeps = true ∧ (Instr.memWrite 0x2001FFFE [0xAA, 0xBB]).wf = true ∧
      idle.cfg.valid = true ∧ classify idle.cfg 0x2001FFFE = .volatileMemory ∧
      ∀ k, k < [(0xAA : Byte), 0xBB].length → inVolatile idle.cfg (0x2001FFFE + BitVec.ofNat 32 k) = true) ∧
    exec (.memWrite 0x2001FFFE [0xAA, 0xBB]) idle = .next (after (exec (.memWrite 0x2001FFFE [0xAA, 0xBB]) idle)) :=
  ⟨by decide +kernel, exec_after _ _⟩

/-- A byte that is known, and two bytes that are not. -/
theorem witness_MemReadReturnsTheBytes :
    idle.env.grant = none ∧
    ((0 : Nat) < (0x01#8 : Byte).toNat ∧
      ({ idle with mem := [(0x08000000, 0x5A)] } : State).mem.read? (0x08000000#32 + BitVec.ofNat 32 0).toNat
        = some 0x5A) ∧
    (∀ k, k < (0x02#8 : Byte).toNat → idle.mem.read? (0xFFFFFFFF#32 + BitVec.ofNat 32 k).toNat = none) ∧
    (returning [0x11, 0x22] idle).env.rdDraws = [0x11, 0x22] ++ [] := by decide +kernel

/-- For `EnableStoresTheComplement` and `DisableStoresAllOnes`. -/
theorem witness_completing_launch :
    (launching [true] idle).env.grant = none ∧ (launching [true] idle).optBusy = false ∧
    launchCompletes (launching [true] idle) = true := by decide +kernel

/-- Flags `0x00` and `0x02`. -/
theorem witness_EnableWithoutFlagDoesNothing :
    idle.env.grant = none ∧ (0x00#8 : Byte) ≠ 0x01#8 ∧ (0x02#8 : Byte) ≠ 0x01#8 := by decide +kernel

/-- Both commands; the controller does not complete at the next wait, and at the one after it does not, or does. -/
theorem witness_UncompletedLaunchHolds :
    (let s := launching [false, false] idle
     s.rstN = true ∧ s.env.grant = none ∧ s.optBusy = false ∧ launchCompletes s = false ∧
      (after (exec (.enableWriteProtect 0x05 0x01) s)).env.nextOpt = false ∧
      (after (exec .disableWriteProtect s)).env.nextOpt = false) ∧
    (let s := launching [false, true] idle
     launchCompletes s = false ∧ (after (exec (.enableWriteProtect 0x05 0x01) s)).env.nextOpt = true ∧
      (after (exec .disableWriteProtect s)).env.nextOpt = true) ∧
    exec (.enableWriteProtect 0x05 0x01) (launching [false, false] idle)
      = .next (after (exec (.enableWriteProtect 0x05 0x01) (launching [false, false] idle))) ∧
    exec .disableWriteProtect (launching [false, false] idle)
      = .next (after (exec .disableWriteProtect (launching [false, false] idle))) :=
  ⟨by decide +kernel, by decide +kernel, exec_after _ _, exec_after _ _⟩

/-- The state after a completed EnableWriteProtect. -/
def enabled : State := after (exec (.enableWriteProtect 0x05 0x01) (launching [true] idle))

theorem witness_EnabledMaskReadsBack :
    ((launching [true] idle).env.grant = none ∧ (launching [true] idle).optBusy = false ∧ enabled.ph = .rxLen) ∧
    exec (.enableWriteProtect 0x05 0x01) (launching [true] idle) = .next enabled ∧
    exec .readSectorStatus enabled = .next (after (exec .readSectorStatus enabled)) :=
  ⟨by decide +kernel, exec_after _ _, exec_after _ _⟩

/-- Every command answers a next state: for the frames, `AckHeaderComesFirst` and `EveryMutationIsBracketed`. -/
theorem witness_frames (i : Instr) (s : State) : exec i s = .next (after (exec i s)) := exec_after i s

/-- The clauses of `FlashEraseFrame`. -/
theorem witness_FlashEraseFrame :
    inProgram idle.cfg (BitVec.ofNat 32 0x08080000) = false ∧ inProgram idle.cfg (BitVec.ofNat 32 0x07FFFFFF) = false ∧
    eraseOutOfRange idle.cfg 0x08 0x01 = true := by decide +kernel

/-- The clauses of `MemWriteFrame`: an address beside the stored bytes, and each class. -/
theorem witness_MemWriteFrame :
    (∀ k, k < [(0xAA : Byte), 0xBB].length → 0x08008002 ≠ (turnAddr 0x08008000 (BitVec.ofNat 9 k)).toNat) ∧
    classify idle.cfg 0x08080000 = .invalid ∧ classify idle.cfg 0x20000000 ≠ .programMemory := by decide +kernel

/-- Both commands of `ProtectionUpdateFrame`, with the flag set and not set. -/
theorem witness_ProtectionUpdateFrame :
    exec (.enableWriteProtect 0x05 0x01) idle = .next (after (exec (.enableWriteProtect 0x05 0x01) idle)) ∧
    exec (.enableWriteProtect 0x05 0x00) idle = .next (after (exec (.enableWriteProtect 0x05 0x00) idle)) ∧
    exec .disableWriteProtect idle = .next (after (exec .disableWriteProtect idle)) :=
  ⟨exec_after _ _, exec_after _ _, exec_after _ _⟩

/-- A step that changes memory: VW10. -/
theorem witness_MemoryStaysCanonical :
    let s := verified [0x0C, 0x57, 0xFF, 0xFF, 0x01, 0x20, 0x02, 0xAA, 0xBB, 0xE7, 0xBD, 0xF7, 0x86]
    s.mem.wf = true ∧ (after (step s)).mem ≠ s.mem ∧ step s = .next (after (step s)) :=
  ⟨by decide +kernel, by decide +kernel, step_after _⟩

/-- A hold between `FlashUnlock()` and `FlashLock()` is orderly too. -/
theorem witness_StepKeepsOrderly :
    Orderly (verified (framed 0x56 [0x02, 0x03])) ∧
    step (verified (framed 0x56 [0x02, 0x03])) = .next (after (step (verified (framed 0x56 [0x02, 0x03])))) ∧
    Orderly { idle with ph := .exec, flLocked := false, step := [.flashLock, .txStatus, .enterRxLen] } :=
  ⟨orderly_verified _, step_after _, .flash, rfl, rfl, ⟨rfl, rfl, rfl, rfl, rfl, rfl⟩, rfl⟩

theorem witness_IdleIsLocked : Orderly idle ∧ idle.step = [] := ⟨orderly_idle, rfl⟩

/-- Each phase. -/
theorem witness_StepKeepsFrameTracked :
    (Orderly idle ∧ FrameTracked idle) ∧ (Orderly midFrame ∧ FrameTracked midFrame) ∧
    (Orderly (received frameVF1) ∧ FrameTracked (received frameVF1)) ∧
    (Orderly (verified frameVF1) ∧ FrameTracked (verified frameVF1)) ∧
    (Orderly handedOver ∧ FrameTracked handedOver) :=
  ⟨⟨orderly_idle, trivial⟩, ⟨orderly_midFrame, by decide +kernel, by decide +kernel, by decide +kernel⟩,
    ⟨orderly_received _, by decide +kernel, by decide +kernel⟩, ⟨orderly_verified _, by decide +kernel, by decide +kernel⟩,
    ⟨orderly_handedOver, trivial⟩⟩

/-- Each phase. -/
theorem witness_PhasesFollowTheTable :
    (Orderly idle ∧ idle.rstN = true ∧ step idle = .next (after (step idle))) ∧
    (Orderly midFrame ∧ midFrame.ph = .rxBody ∧ step midFrame = .next (after (step midFrame))) ∧
    (Orderly (received frameVF1) ∧ (received frameVF1).ph = .verify) ∧
    (Orderly (verified frameVF1) ∧ (verified frameVF1).ph = .exec) ∧
    (Orderly handedOver ∧ handedOver.ph = .dead) :=
  ⟨⟨orderly_idle, rfl, step_after _⟩, ⟨orderly_midFrame, rfl, step_after _⟩, ⟨orderly_received _, rfl⟩, ⟨orderly_verified _, rfl⟩,
    orderly_handedOver, rfl⟩

/-- A command that has run to its end, whatever else. -/
theorem witness_EveryMutationIsBracketed :
    exec (.flashErase 0x06 0x05) (drawing [.pass, .pass] idle)
      = .next (after (exec (.flashErase 0x06 0x05) (drawing [.pass, .pass] idle))) ∧
    (after (exec (.flashErase 0x06 0x05) (drawing [.pass, .pass] idle))).step = [] := ⟨exec_after _ _, by decide +kernel⟩

/-- A command and a raised kind. -/
theorem witness_ExactlyOneResponse :
    (let s := verified frameVF1
     s.cfg.valid = true ∧ s.rstN = true ∧ s.ph = .exec ∧ s.step = [] ∧ (after (step s)).step = [] ∧
      (after (step (verified (framed 0x60 [])))).step = []) ∧
    step (verified frameVF1) = .next (after (step (verified frameVF1))) := ⟨by decide +kernel, step_after _⟩

/-- For `ConstantsNeverChange`, `FrameIsWrittenByReceptionAlone` and `TransmitStreamOnlyGrows`. -/
theorem witness_steps :
    ((verified frameVF1).rstN = true ∧ (verified frameVF1).ph ≠ .rxLen ∧ (verified frameVF1).ph ≠ .rxBody) ∧
    step (verified frameVF1) = .next (after (step (verified frameVF1))) ∧
    step (setRstN false idle) = .next (after (step (setRstN false idle))) :=
  ⟨by decide +kernel, step_after _, step_after _⟩

/-- VP1. -/
theorem witness_MaskChangesOnlyByCompletion :
    let s := launching [true] (verified [0x07, 0x58, 0x05, 0x01, 0x98, 0x35, 0xF9, 0x5D])
    s.rstN = true ∧ step s = .next (after (step s)) ∧ (after (step s)).obNwrp ≠ s.obNwrp :=
  ⟨rfl, step_after _, by decide +kernel⟩

/-- A hold before the first primitive, and one inside the flash bracket. -/
theorem witness_HoldChangesNothing :
    idle.env.grant = none ∧ exec (.flashErase 0x06 0x05) (drawing [.pass, .pass] idle)
        = .next (after (exec (.flashErase 0x06 0x05) (drawing [.pass, .pass] idle))) ∧
    (after (exec (.flashErase 0x06 0x05) (drawing [.pass, .pass] idle))).step = [] ∧
    (after (exec (.flashErase 0x06 0x05) (setGrant (some 0) (drawing [.pass, .pass] idle)))).step ≠ [] ∧
    (after (exec (.flashErase 0x06 0x05) (setGrant (some 4) (drawing [.pass, .pass] idle)))).flLocked = false :=
  ⟨rfl, exec_after _ _, by decide +kernel, by decide +kernel, by decide +kernel⟩

/-- A block held at the second wait of a launch, which the controller completes at the next step or not. -/
def heldAtWait (completes : Bool) : State :=
  setGrant (some 0)
    (launching [completes] { idle with
      ph := .exec, step := [.waitOptIdle, .optLock, .setStatus 0x00, .txStatus, .enterRxLen],
      optctl := { optlock := false, optstrt := true, nwrp := 0xFA }, optBusy := true })

/-- The launch completes while the wait is held: the new mask is stored, the block still waits (R37 (b)). -/
theorem test_completion_under_hold :
    (after (step (heldAtWait true))).obNwrp = 0xFA ∧ (after (step (heldAtWait true))).optBusy = false ∧
    (after (step (heldAtWait true))).step = (heldAtWait true).step := by decide +kernel

/-- No byte; an exchange held in each receive phase; a primitive held in VERIFY and in EXEC; a held wait, the launch
completing or not. -/
theorem witness_HeldBlockStaysWhereItIs :
    (idle.rstN = true ∧ idle.step = [] ∧ idle.rxq = [] ∧ idle.ph = .rxLen) ∧
    ((setGrant (some 0) (hostSends [0x05] idle)).env.grant = some 0 ∧ (setGrant (some 0) (hostSends [0x05] idle)).ph = .rxLen) ∧
    (midFrame.rxq = [] ∧ midFrame.ph = .rxBody ∧ midFrame.idx.toNat < midFrame.frameSize) ∧
    (let s := setGrant (some 0) { received frameVF1 with step := [.crcReset, .judgeCrc, .txNackIfBad, .leaveVerify] }
     s.rstN = true ∧ s.env.grant = some 0 ∧ s.ph = .verify ∧
      s.step = .crcReset :: [.judgeCrc, .txNackIfBad, .leaveVerify] ∧ callsNothing .crcReset s = false) ∧
    (let s := setGrant (some 0) { verified frameVF1 with step := [.tx 0x10, .enterRxLen] }
     s.ph = .exec ∧ s.step = .tx 0x10 :: [.enterRxLen] ∧ callsNothing (.tx 0x10) s = false) ∧
    ((heldAtWait true).rstN = true ∧ (heldAtWait true).env.grant = some 0 ∧ (heldAtWait true).ph = .exec ∧
      (heldAtWait true).step = .waitOptIdle :: [.optLock, .setStatus 0x00, .txStatus, .enterRxLen] ∧
      callsNothing .waitOptIdle (heldAtWait true) = false ∧ (heldAtWait true).optBusy = true ∧
      (heldAtWait true).env.nextOpt = true ∧ (heldAtWait false).env.nextOpt = false) := by decide +kernel

/-- With no launch pending; a primitive in progress and the addresses beside the byte it reaches; the ends of program memory
for the power cycle. -/
theorem witness_ResetValues :
    (setRstN false idle).rstN = false ∧ (setRstN false idle).optBusy = false ∧
    (let s := { setRstN false idle with ph := .exec, step := [.programByte 0x08008000 0xAA, .flashLock] }
     inProgress s (BitVec.ofNat 32 0x08007FFF) = false ∧ inProgress s (BitVec.ofNat 32 0x08008001) = false ∧
      inProgress s (BitVec.ofNat 32 0x08008000) = true) ∧
    inProgram idle.cfg (BitVec.ofNat 32 0x0807FFFF) = true ∧ inProgram idle.cfg (BitVec.ofNat 32 0x08080000) = false := by
  decide +kernel

theorem witness_FirstActResetsTheAccumulator :
    (setRstN false idle).rstN = false ∧ (setRstN false idle).env.grant = none := ⟨rfl, rfl⟩

/-- The start of a handler, and a handler resumed inside the flash bracket. -/
theorem witness_StepKeepsBrackets :
    let s : State := { idle with ph := .exec, flLocked := false, step := [.flashLock, .txStatus, .enterRxLen] }
    (s.rstN = true ∧ OrderlyAt .flash s ∧ step s = .next (after (step s))) ∧
    OrderlyAt .rest (verified (framed 0x56 [0x02, 0x03])) :=
  ⟨⟨rfl, ⟨rfl, rfl, ⟨rfl, rfl, rfl, rfl, rfl, rfl⟩, rfl⟩, step_after _⟩, rfl, rfl, ⟨rfl, rfl, rfl, rfl, rfl, rfl⟩, rfl⟩

/-- Reset keeps volatile memory (R282), a power cycle does not (R283); while `rst_n = 0` the block is not ready (R280). -/
theorem test_power_cycle :
    let s : State := { idle with mem := [(0x08000000, 0xAA), (0x20000000, 0xBB), (0x40000000, 0xCC)] }
    (after (step (setRstN false s))).mem = s.mem ∧ (after (step (powerUp s))).mem = [(0x08000000, 0xAA)] ∧
    (after (step (setRstN false s))).rxReady = false ∧ s.rxReady = true := by decide +kernel

/-- A mass erase held at `FlashLock()` has not written STATUS yet (R170). -/
theorem test_massErase_status_after_lock :
    (let h := after (exec (.flashErase 0x00 0xFF) (setGrant (some 4) (drawing [.fail] { idle with status := 0x55 })))
     h.step = [.flashLock, .massStatus, .txStatus, .enterRxLen] ∧ h.status = 0x55 ∧ h.r = .fail) ∧
    (after (exec (.flashErase 0x00 0xFF) (drawing [.fail] idle))).status = 0x01 := by decide +kernel

end Sys2Proof.Tests
end

section
/-! PROOFS. The checksum: why the reference unit sees the change of any one byte (spec/00_scope.md R12, R13). -/

namespace Sys2Proof

/-! ## The reference checksum unit (R13) -/

/-- A shift keeps the bit it drops: the polynomial is odd, so that bit stands at the bottom of the result. -/
theorem crcShift_getLsbD_zero (acc : Word) : (crcShift acc).getLsbD 0 = acc.msb := by
  unfold crcShift
  cases h : acc.msb <;> simp

/-- So nothing of the accumulator is lost in a shift. -/
theorem crcShift_injective : Function.Injective crcShift := by
  intro a b hab
  have hmsb : a.msb = b.msb := by rw [← crcShift_getLsbD_zero a, hab, crcShift_getLsbD_zero]
  have hshl : a <<< 1 = b <<< 1 := by
    unfold crcShift at hab
    cases h : b.msb <;> simpa [hmsb, h] using hab
  refine BitVec.eq_of_getLsbD_eq fun i hi => ?_
  by_cases htop : i = 31
  · subst htop
    simpa [BitVec.msb_eq_getLsbD_last] using hmsb
  · have hbit := congrArg (fun x : Word => x.getLsbD (i + 1)) hshl
    simpa [BitVec.getLsbD_shiftLeft, show i + 1 < 32 by omega, hi] using hbit

theorem crcShifts_eq_iterate (n : Nat) : crcShifts n = crcShift^[n] := by
  induction n with
  | zero => rfl
  | succ n ih => funext acc; exact congrFun ih (crcShift acc)

theorem crcShifts_injective (n : Nat) : Function.Injective (crcShifts n) :=
  crcShifts_eq_iterate n ▸ crcShift_injective.iterate n

/-- Feeding one byte tells any two start values apart. -/
theorem crcFeedReference_left_injective (b : Byte) : Function.Injective (crcFeedReference · b) := fun _ _ h =>
  (BitVec.xor_left_inj _).1 (crcShifts_injective 32 h)

/-- Feeding one start value tells any two bytes apart. -/
theorem crcFeedReference_right_injective (acc : Word) : Function.Injective (crcFeedReference acc) := fun a b h => by
  have hw : a.setWidth 32 = b.setWidth 32 := (BitVec.xor_right_inj _).1 (crcShifts_injective 32 h)
  simpa using congrArg (BitVec.setWidth 8) hw

/-- Feeding a sequence tells any two start values apart. -/
theorem foldl_crcFeedReference_injective (bs : List Byte) : Function.Injective (bs.foldl crcFeedReference) := by
  induction bs with
  | nil => exact Function.injective_id
  | cons b bs ih => exact ih.comp (crcFeedReference_left_injective b)

/-- Settles O5: up to the changed byte both accumulators agree, that byte sets them apart (R13), and every later byte
keeps them apart. -/
theorem referenceCrcDetectsOneByte : Obligations.ReferenceCrcDetectsOneByte := by
  intro c hc before after b b' hne heq
  have hfeed : crcFeed c.crcUnit = crcFeedReference := by rw [hc]; rfl
  simp only [crcOf, hfeed, List.foldl_append, List.foldl_cons] at heq
  exact hne (crcFeedReference_right_injective _ (foldl_crcFeedReference_injective after heq))

end Sys2Proof
end

section
/-! PROOFS. What `step` is in each phase, the constants, and holds: what moves while the block is held, and that a held
command ends as an unheld one (spec/00_scope.md R17; spec/10_state.md R37). -/

namespace Sys2Proof.Machine

/-! ## One equation of `step` per phase (R26) -/

/-- Writing `STEP` as it is changes nothing. -/
theorem setStep_self {s : State} {l : List Op} (h : s.step = l) : { s with step := l } = s := by subst h; rfl

/-- The entries that phases VERIFY and EXEC have to run: those that a hold has left, else the phase's own from its start
(R134, R139, R140). -/
def dueOps (s : State) : List Op :=
  match s.step with
  | [] =>
    if s.ph = .verify then verifyOps s
    else match decodeBody s.frame with
      | .ok i => handlerOps s.cfg i
      | .error k => raiseOps s.cfg k
  | op :: ops => op :: ops

theorem dueOps_of_step {s : State} {op : Op} {ops : List Op} (h : s.step = op :: ops) : dueOps s = op :: ops := by
  simp [dueOps, h]

theorem step_of_reset {s : State} (hr : s.rstN = false) : step s = .next (applyReset s) := by simp [step, hr]

theorem step_of_rxLen {s : State} (hr : s.rstN = true) (hp : s.ph = .rxLen) (hs : s.step = []) :
    step s = .next (receive receiveLength s) := by simp [step, hr, hp, stepRxLen, hs]

/-- In RX_LEN an entry is left over by a reset (R281). -/
theorem step_of_rxLen_due {s : State} {op : Op} {ops : List Op} (hr : s.rstN = true) (hp : s.ph = .rxLen)
    (hs : s.step = op :: ops) : step s = .next (resume s) := by simp [step, hr, hp, stepRxLen, hs]

theorem step_of_rxBody {s : State} (hr : s.rstN = true) (hp : s.ph = .rxBody) :
    step s = .next (receiveBodyStep s) := by simp [step, hr, hp]

theorem step_of_dead {s : State} (hr : s.rstN = true) (hp : s.ph = .dead) : step s = .next s := by
  simp [step, hr, hp]

/-- VERIFY and EXEC run the entries that are due, to their end or to a hold. -/
theorem step_of_running {s : State} (hr : s.rstN = true) (hp : s.ph = .verify ∨ s.ph = .exec) :
    step s = .next (run (dueOps s) { s with step := [] }) := by
  cases hs : s.step with
  | cons op ops => obtain hp | hp := hp <;> simp [step, hr, hp, stepVerify, stepExec, hs, dueOps, resume]
  | nil =>
    obtain hp | hp := hp
    · rw [setStep_self hs]
      simp [step, hr, hp, stepVerify, hs, dueOps]
    · cases hd : decodeBody s.frame <;>
        simp [step, hr, hp, stepExec, hs, dueOps, hd, exec_eq, startHandler, raise]

/-! ## Receiving, held or not -/

/-- All that `receive` can do: hold, or use the next byte. -/
theorem receive_cases (use : Byte → State → State) (s : State) :
    receive use s = s ∨ ∃ b rest, s.rxq = b :: rest ∧ receive use s = use b { spend s with rxq := rest } := by
  unfold receive
  split
  · exact .inl rfl
  next b rest h =>
    cases stalled s
    · exact .inr ⟨b, rest, h, rfl⟩
    · exact .inl rfl

theorem receive_held (use : Byte → State → State) {s : State} (h : s.rxq = [] ∨ s.env.grant = some 0) :
    receive use s = s := by
  unfold receive
  split
  · rfl
  next hq =>
    have hg : s.env.grant = some 0 := h.resolve_left (by simp [hq])
    simp [stalled, hg]

/-! ## The constants (R8, R39, R40) -/

/-- The two states have the same configuration, debug-ID field and readout-protection byte. -/
def SameConstants (s t : State) : Prop := t.cfg = s.cfg ∧ t.dbgId = s.dbgId ∧ t.obRdp = s.obRdp

theorem run_constants (ops : List Op) (s : State) : SameConstants s (run ops s) := by
  obtain ⟨hcfg, -, -, -, -, -, hrdp, hid⟩ := run_fixed ops s
  exact ⟨hcfg, hid, hrdp⟩

theorem receiveLength_constants (b : Byte) (s : State) : SameConstants s (receiveLength b s) := ⟨rfl, rfl, rfl⟩

theorem receiveBody_constants (b : Byte) (s : State) : SameConstants s (receiveBody b s) := ⟨rfl, rfl, rfl⟩

theorem receive_constants {use : Byte → State → State} (huse : ∀ b s, SameConstants s (use b s)) (s : State) :
    SameConstants s (receive use s) := by
  obtain h | ⟨b, rest, -, h⟩ := receive_cases use s <;> rw [h]
  · exact ⟨rfl, rfl, rfl⟩
  · exact huse b { spend s with rxq := rest }

theorem receiveBodyStep_constants (s : State) : SameConstants s (receiveBodyStep s) := by
  unfold receiveBodyStep
  split
  · exact receive_constants receiveBody_constants s
  · exact ⟨rfl, rfl, rfl⟩

/-- A reset writes none of the three, receiving a byte writes none, and no entry of `STEP` does (`run_fixed`). -/
theorem step_constants (s : State) : ∃ t, step s = .next t ∧ SameConstants s t := by
  cases hr : s.rstN with
  | false => exact ⟨_, step_of_reset hr, rfl, rfl, rfl⟩
  | true =>
    cases hp : s.ph with
    | rxLen =>
      cases hs : s.step with
      | nil => exact ⟨_, step_of_rxLen hr hp hs, receive_constants receiveLength_constants s⟩
      | cons op ops => exact ⟨_, step_of_rxLen_due hr hp hs, run_constants s.step { s with step := [] }⟩
    | rxBody => exact ⟨_, step_of_rxBody hr hp, receiveBodyStep_constants s⟩
    | verify => exact ⟨_, step_of_running hr (.inl hp), run_constants _ { s with step := [] }⟩
    | exec => exact ⟨_, step_of_running hr (.inr hp), run_constants _ { s with step := [] }⟩
    | dead => exact ⟨_, step_of_dead hr hp, rfl, rfl, rfl⟩

/-- Settles O52, by the step's equation in each phase (`step_constants`). -/
theorem constantsNeverChange : Obligations.ConstantsNeverChange := by
  intro s t h
  obtain ⟨u, hu, hconst⟩ := step_constants s
  obtain rfl : u = t := Host.Outcome.next.inj (hu.symm.trans h)
  exact hconst

/-! ## What the environment does while an entry is held (R37) -/

/-- The environment's move at a launch commutes with every update that neither decides it nor is touched by it. -/
theorem launchMoves_comm {f : State → State} {s : State} (hb : (f s).optBusy = s.optBusy)
    (hn : (f s).env.nextOpt = s.env.nextOpt) (ht : takeOpt (f s) = f (takeOpt s))
    (hc : ∀ a, optComplete (f a) = f (optComplete a)) : launchMoves (f s) = f (launchMoves s) := by
  unfold launchMoves
  rw [hb, hn, ht, hc]
  cases s.optBusy <;> cases s.env.nextOpt <;> rfl

theorem launchMoves_setStep (l : List Op) (s : State) :
    launchMoves { s with step := l } = { launchMoves s with step := l } :=
  launchMoves_comm (f := fun a => { a with step := l }) rfl rfl rfl fun _ => rfl

theorem launchMoves_setGrant (g : Option Nat) (s : State) : launchMoves (setGrant g s) = setGrant g (launchMoves s) :=
  launchMoves_comm rfl rfl (takeOpt_setGrant g s) fun _ => rfl

theorem whileHeld_setStep (op : Op) (l : List Op) (s : State) :
    whileHeld op { s with step := l } = { whileHeld op s with step := l } := by
  by_cases hop : op = .waitOptIdle
  · subst hop; exact launchMoves_setStep l s
  · simp [hop]

theorem whileHeld_setGrant (op : Op) (g : Option Nat) (s : State) :
    whileHeld op (setGrant g s) = setGrant g (whileHeld op s) := by
  by_cases hop : op = .waitOptIdle
  · subst hop; exact launchMoves_setGrant g s
  · simp [hop]

@[simp] theorem whileHeld_step (op : Op) (s : State) : (whileHeld op s).step = s.step := by
  unfold whileHeld; split <;> simp

/-! ## One entry, by what decides it -/

theorem advance_of_callsNothing {op : Op} {s : State} (hc : callsNothing op s = true) :
    advance op s = .done (perform op s) := by simp [advance, hc]

theorem advance_of_stalled {op : Op} {s : State} (hc : callsNothing op s = false) (hst : stalled s = true) :
    advance op s = .hold (whileHeld op s) := by simp [advance, hc, hst]

theorem advance_of_waitsOn {op : Op} {s : State} (hc : callsNothing op s = false) (hw : waitsOn op s = true) :
    advance op s = .hold (whileHeld op s) := by simp [advance, hc, hw]

theorem advance_of_granted {op : Op} {s : State} (hc : callsNothing op s = false) (hst : stalled s = false)
    (hw : waitsOn op s = false) : advance op s = .done (perform op (spend s)) := by simp [advance, hc, hst, hw]

/-! ## What a held block does (R17, R133, R255) -/

theorem stalled_of_zero {s : State} (hg : s.env.grant = some 0) : stalled s = true := by simp [stalled, hg]

/-- An entry calls a primitive or not whatever stands in `STEP`. -/
theorem callsNothing_setStep (op : Op) (l : List Op) (s : State) :
    callsNothing op { s with step := l } = callsNothing op s := by cases op <;> rfl

theorem receiveBodyStep_held {s : State} (hi : s.idx.toNat < s.frameSize) (h : s.rxq = [] ∨ s.env.grant = some 0) :
    receiveBodyStep s = s := by rw [receiveBodyStep, if_pos hi, receive_held _ h]

/-- A step of a stalled block is what the environment does while the due entry is held, and nothing else. -/
theorem step_stalled {s : State} {op : Op} {ops : List Op} (hr : s.rstN = true) (hg : s.env.grant = some 0)
    (hp : s.ph = .verify ∨ s.ph = .exec) (hs : s.step = op :: ops) (hc : callsNothing op s = false) :
    step s = .next (whileHeld op s) := by
  have hhold : advance op { s with step := [] } = .hold (whileHeld op { s with step := [] }) :=
    advance_of_stalled ((callsNothing_setStep op [] s).trans hc) (stalled_of_zero hg)
  rw [step_of_running hr hp, dueOps_of_step hs, run_cons_of_hold hhold, whileHeld_setStep]
  exact congrArg _ (setStep_self ((whileHeld_step op s).trans hs))

/-- Settles O57: a held reception answers its own state (`receive_held`), and a stalled entry leaves the state to
`whileHeld` (`step_stalled`), which is `launchMoves` at a wait and nothing elsewhere. -/
theorem heldBlockStaysWhereItIs : Obligations.HeldBlockStaysWhereItIs := by
  intro s hr
  refine ⟨fun hs hheld hph => ?_, fun op ops hg hp hs hc => ?_⟩
  · obtain hp | ⟨hp, hi⟩ := hph
    · rw [step_of_rxLen hr hp hs, receive_held _ hheld]
    · rw [step_of_rxBody hr hp, receiveBodyStep_held hi hheld]
  · rw [step_stalled hr hg hp hs hc]
    refine ⟨fun hidle => ?_, ?_, ?_⟩
    · obtain hne | hb := hidle
      · rw [whileHeld_of_ne hne]
      · rw [whileHeld_of_idle op hb]
    · rintro rfl hb hn
      rw [whileHeld_wait, launchMoves_waits hb hn]
    · rintro rfl hb hn
      rw [whileHeld_wait, launchMoves_completes hb hn]
      rfl

/-! ## A hold and what comes after it (R17, R72) -/

theorem setGrant_setGrant (g g' : Option Nat) (s : State) : setGrant g (setGrant g' s) = setGrant g s := rfl

theorem setGrant_self {g : Option Nat} {s : State} (h : s.env.grant = g) : setGrant g s = s := by subst h; rfl

theorem spend_setGrant_succ (k : Nat) (s : State) : spend (setGrant (some (k + 1)) s) = setGrant (some k) s := rfl

/-- An entry calls a primitive or not whatever number of primitives the environment grants. -/
theorem callsNothing_setGrant (op : Op) (g : Option Nat) (s : State) :
    callsNothing op (setGrant g s) = callsNothing op s := by cases op <;> rfl

/-- An entry that is no failing wait comes to the same state after what the environment did while it was held: a launch
completed under the hold is the one the wait would have completed (R37). -/
theorem run_whileHeld {op : Op} {s : State} (ops : List Op) (hg : s.env.grant = none) (hw : waitsOn op s = false) :
    run (op :: ops) (whileHeld op s) = run (op :: ops) s := by
  by_cases hop : op = .waitOptIdle
  · subst hop
    cases hb : s.optBusy with
    | false => rw [whileHeld_of_idle _ hb]
    | true =>
      have hn : s.env.nextOpt = true := by simpa [waitsOn, hb] using hw
      have hheld : whileHeld .waitOptIdle s = optComplete (takeOpt s) := launchMoves_completes hb hn
      have hperf : perform .waitOptIdle (optComplete (takeOpt s)) = perform .waitOptIdle s := by
        simp [perform, primWaitOptIdle, hb, optComplete]
      rw [hheld, run_cons_free hg hw, run_cons_free (by simpa [optComplete] using hg) (waitsOn_of_idle _ rfl), hperf]
  · rw [whileHeld_of_ne hop]

/-- A run that completes without a limit ends in the same state when it is held after `k` primitives and then goes on. -/
theorem resume_run_setGrant (k : Nat) (ops : List Op) (s : State) (hg : s.env.grant = none) (hs : s.step = [])
    (ht : (run ops s).step = []) : resume (setGrant none (run ops (setGrant (some k) s))) = run ops s := by
  induction ops generalizing k s with
  | nil =>
    rw [run_nil, run_nil, setGrant_setGrant, setGrant_self hg, resume, hs, run_nil, setStep_self hs]
  | cons op ops ih =>
    have hrest : ∀ j, run (op :: ops) s = run ops (perform op s) →
        resume (setGrant none (run ops (setGrant (some j) (perform op s)))) = run (op :: ops) s := fun j h => by
      rw [h] at ht ⊢
      exact ih j (perform op s) (by simpa using hg) (by simpa using hs) ht
    have hcalls : callsNothing op (setGrant (some k) s) = callsNothing op s := callsNothing_setGrant op (some k) s
    cases hc : callsNothing op s with
    | true =>
      rw [run_cons_of_done (advance_of_callsNothing (hcalls.trans hc)), perform_setGrant]
      exact hrest k (run_cons_of_done (advance_of_callsNothing hc))
    | false =>
      have hw : waitsOn op s = false := by
        by_contra hwait
        rw [run_cons_of_hold (advance_of_waitsOn hc (by simpa using hwait))] at ht
        simp at ht
      cases k with
      | zero =>
        rw [run_cons_of_hold (advance_of_stalled (hcalls.trans hc) rfl), whileHeld_setGrant]
        show run (op :: ops) { setGrant none (whileHeld op s) with step := [] } = _
        rw [← whileHeld_setGrant, setGrant_self hg, setStep_self (by simpa using hs), run_whileHeld ops hg hw]
      | succ k =>
        rw [run_cons_of_done (advance_of_granted (hcalls.trans hc) rfl hw), spend_setGrant_succ, perform_setGrant]
        exact hrest k (run_cons_free hg hw)

/-- Settles O56, by induction on the entries of the command (`resume_run_setGrant`): before the hold both runs perform the
same entries, and at the hold the environment does at most what the wait would have found done (`run_whileHeld`). -/
theorem holdChangesNothing : Obligations.HoldChangesNothing := by
  intro s t h i k hg ht hdone hh
  rw [exec_eq] at ht hh
  obtain rfl := Host.Outcome.next.inj ht
  obtain rfl := Host.Outcome.next.inj hh
  exact resume_run_setGrant k (handlerOps s.cfg i) { s with ph := .exec, step := [] } hg rfl hdone

end Sys2Proof.Machine
end

section
/-! PROOFS. What one step can do, and the invariants that follow from it alone: the memory's canonical form, the streams
that only grow, the persistent mask, the frame outside the receive phases (spec/10_state.md R20, R26, R38, R42 to R44). -/

namespace Sys2Proof.Machine

/-! ## All that a step can do while `rst_n` is released (R26) -/

/-- The block has entries of `STEP` to run: in VERIFY and EXEC at every step, in RX_LEN those a reset has left (R281). -/
def RunsEntries (s : State) : Prop := s.ph = .rxLen ∧ s.step ≠ [] ∨ s.ph = .verify ∨ s.ph = .exec

/-- The next states of a state whose `rst_n` is released, by what the block does. -/
inductive StepOutcome (s : State) : State → Prop where
  /-- No byte can be taken yet, or the block is DEAD. -/
  | stays (hp : s.ph = .rxLen ∨ s.ph = .rxBody ∨ s.ph = .dead) : StepOutcome s s
  /-- RX_LEN takes a byte (R131). -/
  | takesLength (b : Byte) (rest : List Byte) (hp : s.ph = .rxLen) :
    StepOutcome s (receiveLength b { spend s with rxq := rest })
  /-- RX_BODY takes a byte (R132). -/
  | takesBody (b : Byte) (rest : List Byte) (hp : s.ph = .rxBody) (hi : s.idx.toNat < s.frameSize) :
    StepOutcome s (receiveBody b { spend s with rxq := rest })
  /-- RX_BODY finds the frame complete (R132). -/
  | endsBody (hp : s.ph = .rxBody) (hi : ¬ s.idx.toNat < s.frameSize) : StepOutcome s { s with ph := .verify }
  /-- The entries that are due run, to their end or to a hold (R17). -/
  | runs (hp : RunsEntries s) : StepOutcome s (run (dueOps s) { s with step := [] })

theorem stepOutcome_of_rxLen {s : State} (hp : s.ph = .rxLen) : StepOutcome s (receive receiveLength s) := by
  obtain h | ⟨b, rest, -, h⟩ := receive_cases receiveLength s <;> rw [h]
  · exact .stays (.inl hp)
  · exact .takesLength b rest hp

theorem stepOutcome_of_rxBody {s : State} (hp : s.ph = .rxBody) : StepOutcome s (receiveBodyStep s) := by
  unfold receiveBodyStep
  split
  next hi =>
    obtain h | ⟨b, rest, -, h⟩ := receive_cases receiveBody s <;> rw [h]
    · exact .stays (.inr (.inl hp))
    · exact .takesBody b rest hp hi
  next hi => exact .endsBody hp hi

theorem step_outcome {s t : State} (hr : s.rstN = true) (ht : step s = .next t) : StepOutcome s t := by
  suffices h : ∃ u, step s = .next u ∧ StepOutcome s u by
    obtain ⟨u, hu, hout⟩ := h
    exact Host.Outcome.next.inj (hu.symm.trans ht) ▸ hout
  cases hp : s.ph with
  | rxLen =>
    cases hs : s.step with
    | nil => exact ⟨_, step_of_rxLen hr hp hs, stepOutcome_of_rxLen hp⟩
    | cons op ops =>
      refine ⟨_, step_of_rxLen_due hr hp hs, ?_⟩
      rw [resume, hs, ← dueOps_of_step hs]
      exact .runs (.inl ⟨hp, by simp [hs]⟩)
  | rxBody => exact ⟨_, step_of_rxBody hr hp, stepOutcome_of_rxBody hp⟩
  | verify => exact ⟨_, step_of_running hr (.inl hp), .runs (.inr (.inl hp))⟩
  | exec => exact ⟨_, step_of_running hr (.inr hp), .runs (.inr (.inr hp))⟩
  | dead => exact ⟨_, step_of_dead hr hp, .stays (.inr (.inr hp))⟩

/-- A predicate that neither the sequencer position nor the frame decides holds after a step when every completed entry,
every byte received and every move of the environment keeps it. -/
theorem step_induction {P : State → Prop} {s t : State} (hr : s.rstN = true) (ht : step s = .next t)
    (hposition : ∀ a l p fb n k q, P a → P { a with step := l, ph := p, fb := fb, len := n, idx := k, rxq := q })
    (hspend : ∀ a, P a → P (spend a)) (hrx : ∀ b a, P a → P (emit (.rx b) a))
    (hmoves : ∀ a, P a → P (launchMoves a)) (hperform : ∀ op a, P a → P (perform op a)) (hs : P s) : P t := by
  have hstep : ∀ a l, P a → P { a with step := l } := fun a l h => hposition a l a.ph a.fb a.len a.idx a.rxq h
  cases step_outcome hr ht with
  | stays => exact hs
  | takesLength b rest => exact hrx b _ (hposition (spend s) s.step _ _ _ _ rest (hspend s hs))
  | takesBody b rest => exact hrx b _ (hposition (spend s) s.step _ _ s.len _ rest (hspend s hs))
  | endsBody => exact hposition s s.step .verify s.fb s.len s.idx s.rxq hs
  | runs => exact run_induction hstep hspend _ _ (fun _ => hmoves) (fun op _ => hperform op) (hstep s [] hs)

/-! ## Memory (R42) -/

/-- Every entry keeps the canonical form: it forgets bytes, or writes one at a 32-bit address. -/
theorem perform_wf (op : Op) {s : State} (h : s.mem.wf = true) : (perform op s).mem.wf = true := by
  cases op with
  | eraseSector sec =>
    simp only [perform]
    split
    · exact wf_forgetAll _ _ h
    · exact h
  | massErase => exact wf_forgetAll _ _ h
  | programByte addr d =>
    simp only [perform, primProgramByte, programEffect_mem]
    split
    · exact wf_write _ _ _ (turnAddr addr s.i).isLt h
    · exact wf_forget _ _ h
  | busWrite addr d =>
    simp only [perform, primBusWrite, busWriteEffect_mem]
    split
    · exact wf_write _ _ _ (turnAddr addr s.i).isLt h
    · exact wf_forget _ _ h
  | txNackIfBad | waitOptIdle | optSetOptstrt =>
    simp only [perform, primWaitOptIdle, primOptSetOptstrt]
    split <;> exact h
  | _ => exact h

/-- Settles O43: a reset only forgets bytes, and so does every entry that does not write one (`perform_wf`). -/
theorem memoryStaysCanonical : Obligations.MemoryStaysCanonical := by
  intro s t hwf ht
  cases hr : s.rstN with
  | false =>
    obtain rfl := Host.Outcome.next.inj ((step_of_reset hr).symm.trans ht)
    exact wf_forgetAll _ _ hwf
  | true =>
    exact step_induction (P := fun a => a.mem.wf = true) hr ht (fun _ _ _ _ _ _ _ h => h) (fun _ h => h)
      (fun _ _ h => h) (fun a h => by simpa using h) (fun op _ h => perform_wf op h) hwf

/-! ## The transmit stream and the trace (R19, R44) -/

/-- What the first state has transmitted, and its trace, begin those of the second. -/
def Grows (s t : State) : Prop := s.txq <+: t.txq ∧ s.trace <+: t.trace

theorem Grows.trans {s t u : State} (h : Grows s t) (h' : Grows t u) : Grows s u :=
  ⟨h.1.trans h'.1, h.2.trans h'.2⟩

theorem grows_emit (e : Event) (s : State) : Grows s (emit e s) := ⟨List.prefix_rfl, List.prefix_append _ _⟩

theorem grows_launchMoves (s : State) : Grows s (launchMoves s) := by
  obtain h | h | ⟨-, -, h⟩ := launchMoves_cases s <;> rw [h]
  · exact ⟨List.prefix_rfl, List.prefix_rfl⟩
  · exact ⟨List.prefix_rfl, List.prefix_rfl⟩
  · exact grows_emit .envOptComplete _

theorem grows_perform (op : Op) (s : State) : Grows s (perform op s) := by
  obtain ⟨⟨es, htrace⟩, bs, htxq⟩ := perform_appends op s
  exact ⟨htxq ▸ List.prefix_append _ _, htrace ▸ List.prefix_append _ _⟩

/-- Settles O54: whatever moves in a step only appends (`perform_appends`). -/
theorem transmitStreamOnlyGrows : Obligations.TransmitStreamOnlyGrows := by
  intro s t hr ht
  exact step_induction (P := Grows s) hr ht (fun _ _ _ _ _ _ _ h => h) (fun _ h => h)
    (fun b a h => h.trans (grows_emit (.rx b) a)) (fun a h => h.trans (grows_launchMoves a))
    (fun op a h => h.trans (grows_perform op a)) ⟨List.prefix_rfl, List.prefix_rfl⟩

/-! ## The persistent mask (R37, R38) -/

/-- Between the two states the mask has stayed, or `opt_complete` is among the events. -/
def MaskByCompletion (s t : State) : Prop :=
  ∃ es : List Event, t.trace = s.trace ++ es ∧ (t.obNwrp = s.obNwrp ∨ .envOptComplete ∈ es)

theorem MaskByCompletion.trans {s t u : State} (h : MaskByCompletion s t) (h' : MaskByCompletion t u) :
    MaskByCompletion s u := by
  obtain ⟨es, htrace, hmask⟩ := h
  obtain ⟨es', htrace', hmask'⟩ := h'
  refine ⟨es ++ es', by rw [htrace', htrace, List.append_assoc], ?_⟩
  obtain hmask | hin := hmask
  · obtain hmask' | hin' := hmask'
    · exact .inl (hmask'.trans hmask)
    · exact .inr (List.mem_append_right _ hin')
  · exact .inr (List.mem_append_left _ hin)

theorem maskByCompletion_emit (e : Event) (s : State) : MaskByCompletion s (emit e s) := ⟨[e], rfl, .inl rfl⟩

theorem maskByCompletion_refl (s : State) : MaskByCompletion s s := ⟨[], (List.append_nil _).symm, .inl rfl⟩

theorem maskByCompletion_optComplete (s : State) : MaskByCompletion s (optComplete s) :=
  ⟨[.envOptComplete], rfl, .inr List.mem_cons_self⟩

theorem maskByCompletion_launchMoves (s : State) : MaskByCompletion s (launchMoves s) := by
  obtain h | h | ⟨-, -, h⟩ := launchMoves_cases s <;> rw [h]
  · exact maskByCompletion_refl s
  · exact maskByCompletion_refl s
  · exact maskByCompletion_optComplete (takeOpt s)

/-- No entry but a wait writes the mask. -/
theorem perform_obNwrp {op : Op} (hop : op ≠ .waitOptIdle) (s : State) : (perform op s).obNwrp = s.obNwrp := by
  cases op with
  | waitOptIdle => exact absurd rfl hop
  | txNackIfBad | eraseSector _ | optSetOptstrt =>
    simp only [perform, primOptSetOptstrt]
    split <;> rfl
  | _ => rfl

theorem maskByCompletion_wait (s : State) : MaskByCompletion s (primWaitOptIdle s) := by
  refine MaskByCompletion.trans ?_ (maskByCompletion_emit .optWait _)
  split
  · exact maskByCompletion_optComplete (takeOpt s)
  · exact maskByCompletion_refl s

theorem maskByCompletion_perform (op : Op) (s : State) : MaskByCompletion s (perform op s) := by
  by_cases hop : op = .waitOptIdle
  · subst hop
    exact maskByCompletion_wait s
  · obtain ⟨⟨es, htrace⟩, -⟩ := perform_appends op s
    exact ⟨es, htrace, .inl (perform_obNwrp hop s)⟩

/-- Settles O55: of all that moves in a step only `opt_complete` writes the mask, at a wait (`maskByCompletion_perform`) or
while one is held (`maskByCompletion_launchMoves`). -/
theorem maskChangesOnlyByCompletion : Obligations.MaskChangesOnlyByCompletion := by
  intro s t hr ht hne
  have h : MaskByCompletion s t :=
    step_induction (P := MaskByCompletion s) hr ht (fun _ _ _ _ _ _ _ h => h) (fun _ h => h)
      (fun b a h => h.trans (maskByCompletion_emit (.rx b) a))
      (fun a h => h.trans (maskByCompletion_launchMoves a)) (fun op a h => h.trans (maskByCompletion_perform op a))
      (maskByCompletion_refl s)
  obtain ⟨es, htrace, hmask⟩ := h
  exact ⟨es, htrace, hmask.resolve_left hne⟩

/-! ## The frame (R20, R43) -/

/-- Settles O53: outside the receive phases a step is a run of entries, and no entry touches the frame (`run_fixed`). -/
theorem frameIsWrittenByReceptionAlone : Obligations.FrameIsWrittenByReceptionAlone := by
  intro s t hr ht hnlen hnbody
  cases step_outcome hr ht with
  | stays => exact ⟨rfl, rfl, rfl, rfl⟩
  | takesLength _ _ hp => exact absurd hp hnlen
  | takesBody _ _ hp => exact absurd hp hnbody
  | endsBody hp => exact absurd hp hnbody
  | runs =>
    obtain ⟨-, -, hfb, hlen, hidx, hrxq, -, -⟩ := run_fixed (dueOps s) { s with step := [] }
    exact ⟨hfb, hlen, hidx, hrxq⟩

end Sys2Proof.Machine
end

section
/-! PROOFS. Where the phases lead (spec/10_state.md R26), and that the receive phases keep their place in the frame
(R22, R23). -/

namespace Sys2Proof.Machine

/-! ## Phases (R26) -/

theorem dueOps_of_verify {s : State} (hp : s.ph = .verify) (hs : s.step = []) : dueOps s = verifyOps s := by
  simp [dueOps, hp, hs]

theorem dueOps_of_decoded {s : State} {i : Instr} (hp : s.ph = .exec) (hs : s.step = [])
    (hd : decodeBody s.frame = .ok i) : dueOps s = handlerOps s.cfg i := by simp [dueOps, hp, hs, hd]

theorem dueOps_of_raised {s : State} {k : RaisedKind} (hp : s.ph = .exec) (hs : s.step = [])
    (hd : decodeBody s.frame = .error k) : dueOps s = raiseOps s.cfg k := by simp [dueOps, hp, hs, hd]

/-- Raising a kind is a matter of VERIFY and EXEC alike (R134, R139). -/
theorem raiseOps_fit (c : Cfg) (k : RaisedKind) {p : Phase} (hp : p = .verify ∨ p = .exec) :
    ∀ op ∈ raiseOps c k, fits p op = true := by
  rw [← List.all_eq_true]
  obtain rfl | rfl := hp <;> cases k <;> rfl

theorem verifyOps_fit (s : State) : ∀ op ∈ verifyOps s, fits .verify op = true := by
  unfold verifyOps
  split
  · rw [← List.all_eq_true]
    simp [fits, phasesOf]
  · exact raiseOps_fit s.cfg _ (.inl rfl)

/-- The entries that are due are the phase's own (R134 to R143, R281), if those a hold has left are. -/
theorem dueOps_fit {s : State} (hfit : s.step.all (fits s.ph) = true) (hp : RunsEntries s) :
    ∀ op ∈ dueOps s, fits s.ph op = true := by
  cases hs : s.step with
  | cons op ops =>
    rw [dueOps_of_step hs, ← hs]
    exact List.all_eq_true.1 hfit
  | nil =>
    obtain ⟨-, hne⟩ | hp | hp := hp
    · exact absurd hs hne
    · rw [dueOps_of_verify hp hs, hp]
      exact verifyOps_fit s
    · rw [hp]
      cases hd : decodeBody s.frame with
      | ok i => exact dueOps_of_decoded hp hs hd ▸ handlerOps_fit s.cfg i
      | error k => exact dueOps_of_raised hp hs hd ▸ raiseOps_fit s.cfg k (.inr rfl)

/-- The phases that a run of a phase's own entries can end or hold in. -/
def exitsOf : Phase → List Phase
  | .rxLen => [.rxLen]
  | .verify => [.verify, .exec, .rxLen]
  | .exec => [.exec, .rxLen, .dead]
  | .rxBody | .dead => []

/-- The three entries that write `PH`, and no other does. -/
theorem perform_ph (op : Op) (s : State) :
    (perform op s).ph = s.ph ∨ op = .leaveVerify ∧ (perform op s).ph ∈ [.exec, .rxLen] ∨
      op = .enterRxLen ∧ (perform op s).ph = .rxLen ∨ op = .enterDead ∧ (perform op s).ph = .dead := by
  cases op with
  | leaveVerify =>
    refine .inr (.inl ⟨rfl, ?_⟩)
    simp only [perform]
    split <;> decide
  | enterRxLen => exact .inr (.inr (.inl ⟨rfl, rfl⟩))
  | enterDead => exact .inr (.inr (.inr ⟨rfl, rfl⟩))
  | txNackIfBad | eraseSector _ | waitOptIdle | optSetOptstrt =>
    left
    simp only [perform, primWaitOptIdle, primOptSetOptstrt]
    split <;> rfl
  | _ => exact .inl rfl

theorem perform_ph_mem_exits {op : Op} {p : Phase} (hfit : fits p op = true) {s : State} (hs : s.ph ∈ exitsOf p) :
    (perform op s).ph ∈ exitsOf p := by
  obtain h | ⟨rfl, h⟩ | ⟨rfl, h⟩ | ⟨rfl, h⟩ := perform_ph op s
  · rwa [h]
  all_goals cases p <;> simp_all [fits, phasesOf, exitsOf]

theorem run_ph_mem_exits {p : Phase} {ops : List Op} (hfit : ∀ op ∈ ops, fits p op = true) {s : State}
    (hs : s.ph ∈ exitsOf p) : (run ops s).ph ∈ exitsOf p :=
  run_induction (P := fun a => a.ph ∈ exitsOf p) (fun _ _ h => h) (fun _ h => h) ops s
    (fun _ a h => by rwa [launchMoves_ph]) (fun op hop _ h => perform_ph_mem_exits (hfit op hop) h) hs

/-- The run of an orderly state's due entries leads to a phase of the table. -/
theorem run_dueOps_ph {s : State} (ho : Orderly s) (hp : RunsEntries s) :
    (run (dueOps s) { s with step := [] }).ph ∈ exitsOf s.ph := by
  obtain ⟨st, -, hfit, -, -⟩ := ho
  refine run_ph_mem_exits (dueOps_fit hfit hp) (?_ : s.ph ∈ exitsOf s.ph)
  obtain ⟨h, -⟩ | h | h := hp <;> rw [h] <;> decide

theorem receiveLength_ph (b : Byte) (s : State) :
    (receiveLength b s).ph = .rxBody ∨ (receiveLength b s).ph = .verify := by
  simp only [receiveLength, emit_ph]
  split
  · exact .inr rfl
  · exact .inl rfl

theorem receiveBody_ph (b : Byte) (s : State) : (receiveBody b s).ph = .rxBody ∨ (receiveBody b s).ph = .verify := by
  simp only [receiveBody, emit_ph]
  split
  · exact .inl rfl
  · exact .inr rfl

/-- Settles O48: a byte received leads to RX_BODY or VERIFY, and a run of the phase's own entries to the phases that those
among them that write `PH` name (`run_dueOps_ph`). -/
theorem phasesFollowTheTable : Obligations.PhasesFollowTheTable := by
  intro s t ho hr ht
  cases step_outcome hr ht with
  | stays hp => obtain hp | hp | hp := hp <;> simp [hp]
  | takesLength b rest hp => simpa [hp] using Or.inr (receiveLength_ph b { spend s with rxq := rest })
  | takesBody b rest hp => simpa [hp] using receiveBody_ph b { spend s with rxq := rest }
  | endsBody hp => simp [hp]
  | runs hp =>
    have hexit := run_dueOps_ph ho hp
    generalize run (dueOps s) { s with step := [] } = u at hexit ⊢
    obtain ⟨hp, -⟩ | hp | hp := hp <;> rw [hp] at hexit ⊢
    · exact .inl (by simpa [exitsOf] using hexit)
    · simpa [exitsOf] using hexit
    · simpa [exitsOf] using hexit

/-! ## The place in the frame (R22, R23) -/

/-- The byte count and the copy of `LEN` that VERIFY and EXEC find: the frame is complete. -/
def FrameComplete (s : State) : Prop := s.idx.toNat = s.frameSize ∧ s.fbAt 0 = s.len

theorem frameTracked_of_rxLen {s : State} (hp : s.ph = .rxLen) : FrameTracked s := by simp [FrameTracked, hp]

theorem frameTracked_of_dead {s : State} (hp : s.ph = .dead) : FrameTracked s := by simp [FrameTracked, hp]

theorem frameTracked_of_rxBody {s : State} (hp : s.ph = .rxBody) :
    FrameTracked s ↔ 1 ≤ s.idx.toNat ∧ s.idx.toNat ≤ s.len.toNat ∧ s.fbAt 0 = s.len := by simp [FrameTracked, hp]

theorem frameTracked_of_running {s : State} (hp : s.ph = .verify ∨ s.ph = .exec) :
    FrameTracked s ↔ FrameComplete s := by
  obtain hp | hp := hp <;> simp [FrameTracked, FrameComplete, hp]

@[simp] theorem byteAt_storeByte_zero (fb : Vector Byte 256) (b : Byte) : byteAt (storeByte fb 0 b).toList 0 = b := by
  simp [byteAt, storeByte]

theorem byteAt_storeByte_of_pos (fb : Vector Byte 256) {k : Nat} (hk : 1 ≤ k) (b : Byte) :
    byteAt (storeByte fb k b).toList 0 = byteAt fb.toList 0 := by
  have hne : k ≠ 0 := by omega
  simp [byteAt, storeByte, hne]

/-- The length byte is the first of a frame, and the only one when it is 0. -/
theorem frameTracked_receiveLength (b : Byte) (s : State) : FrameTracked (receiveLength b s) := by
  have hfirst : (receiveLength b s).fbAt 0 = b := byteAt_storeByte_zero s.fb b
  by_cases hb : b = 0#8
  · have hp : (receiveLength b s).ph = .verify := if_pos hb
    rw [frameTracked_of_running (.inl hp)]
    subst hb
    exact ⟨rfl, hfirst⟩
  · have hp : (receiveLength b s).ph = .rxBody := if_neg hb
    rw [frameTracked_of_rxBody hp]
    have hpos : b.toNat ≠ 0 := fun h => hb (BitVec.eq_of_toNat_eq h)
    exact ⟨Nat.le_refl 1, Nat.one_le_iff_ne_zero.2 hpos, hfirst⟩

/-- A byte of the body is stored behind the first and counted. -/
theorem frameTracked_receiveBody (b : Byte) {s : State} (hp : s.ph = .rxBody) (hs : FrameTracked s) :
    FrameTracked (receiveBody b s) := by
  obtain ⟨hpos, hle, hfirst⟩ := (frameTracked_of_rxBody hp).1 hs
  have hfirst' : (receiveBody b s).fbAt 0 = s.len := (byteAt_storeByte_of_pos s.fb hpos b).trans hfirst
  have hidx : (receiveBody b s).idx.toNat = s.idx.toNat + 1 := by
    show (s.idx + 1#9).toNat = _
    have hlt := s.len.isLt
    rw [BitVec.toNat_add]
    exact Nat.mod_eq_of_lt (by simp only [BitVec.toNat_ofNat]; omega)
  by_cases hmore : s.idx.toNat + 1 < s.frameSize
  · rw [frameTracked_of_rxBody (if_pos hmore), hidx]
    exact ⟨by omega, Nat.le_of_lt_succ hmore, hfirst'⟩
  · rw [frameTracked_of_running (.inl (if_neg hmore)), FrameComplete, hidx]
    exact ⟨Nat.le_antisymm (Nat.succ_le_succ hle) (Nat.le_of_not_lt hmore), hfirst'⟩

/-- A run of the due entries touches no byte of the frame (`run_fixed`) and does not lead to RX_BODY. -/
theorem frameTracked_run_dueOps {s : State} (ho : Orderly s) (hs : FrameTracked s) (hp : RunsEntries s) :
    FrameTracked (run (dueOps s) { s with step := [] }) := by
  have hexit := run_dueOps_ph ho hp
  obtain ⟨-, -, hfb, hlen, hidx, -, -, -⟩ := run_fixed (dueOps s) { s with step := [] }
  generalize run (dueOps s) { s with step := [] } = t at *
  obtain ⟨hp, -⟩ | hp := hp
  · exact frameTracked_of_rxLen (by simpa [hp, exitsOf] using hexit)
  · have hcomplete : FrameComplete t := by
      simpa [FrameComplete, State.fbAt, State.frameSize, hfb, hlen, hidx] using (frameTracked_of_running hp).1 hs
    have ht : t.ph = .rxLen ∨ t.ph = .dead ∨ t.ph = .verify ∨ t.ph = .exec := by
      obtain hp | hp := hp <;> simp only [hp, exitsOf, List.mem_cons, List.not_mem_nil] at hexit <;> tauto
    obtain ht | ht | ht := ht
    · exact frameTracked_of_rxLen ht
    · exact frameTracked_of_dead ht
    · exact (frameTracked_of_running ht).2 hcomplete

/-- Settles O47: the two receptions count what they store, RX_BODY is never found with its frame complete, and no run
touches the frame. A reset leads to RX_LEN. -/
theorem stepKeepsFrameTracked : Obligations.StepKeepsFrameTracked := by
  intro s t ho hs ht
  cases hr : s.rstN with
  | false =>
    obtain rfl := Host.Outcome.next.inj ((step_of_reset hr).symm.trans ht)
    exact frameTracked_of_rxLen rfl
  | true =>
    cases step_outcome hr ht with
    | stays => exact hs
    | takesLength b rest => exact frameTracked_receiveLength b _
    | takesBody b rest hp => exact frameTracked_receiveBody b (s := { spend s with rxq := rest }) hp hs
    | endsBody hp hi =>
      obtain ⟨-, hle, -⟩ := (frameTracked_of_rxBody hp).1 hs
      exact absurd (Nat.lt_succ_of_le hle) hi
    | runs hp => exact frameTracked_run_dueOps ho hs hp

end Sys2Proof.Machine
end

section
/-! PROOFS. Reset: the values it gives, the invariants they satisfy, the first act after it, and that it alone leaves DEAD
(spec/10_state.md R26, R45; spec/70_reset_and_hazards.md R280 to R283). -/

namespace Sys2Proof.Machine

/-! ## Memory over a reset and a power cycle (R282, R283) -/

/-- What a test selects is no longer known once it has been forgotten. -/
theorem read?_forgetAll_same (m : Memory) (p : Word → Bool) {n : Nat} (hn : p (BitVec.ofNat 32 n) = true) :
    (m.forgetAll p).read? n = none := by
  induction m with
  | nil => rfl
  | cons c m ih =>
    by_cases hc : p (BitVec.ofNat 32 c.1) = true
    · have hdrop : Memory.forgetAll (c :: m) p = Memory.forgetAll m p := by simp [Memory.forgetAll, hc]
      rw [hdrop, ih]
    · have hkeep : Memory.forgetAll (c :: m) p = c :: Memory.forgetAll m p := by simp [Memory.forgetAll, hc]
      have hne : c.1 ≠ n := fun h => hc (h ▸ hn)
      rw [hkeep, read?_cons, if_neg hne, ih]

theorem forgetAll_comm (m : Memory) (p q : Word → Bool) :
    (m.forgetAll p).forgetAll q = (m.forgetAll q).forgetAll p := by
  simp [Memory.forgetAll, List.filter_filter, Bool.and_comm]

/-- A power cycle ends in what a reset leaves, less the bytes outside program memory. -/
theorem memAfterReset_powerUp (s : State) :
    memAfterReset (powerUp s) = (memAfterReset s).forgetAll fun a => !inProgram s.cfg a :=
  forgetAll_comm s.mem (fun a => !inProgram s.cfg a) (inProgress s)

/-- Settles O58: both resets are `applyReset`, and their memories are two applications of `forgetAll`. -/
theorem resetValues : Obligations.ResetValues := by
  intro s
  refine ⟨fun hr => ?_, ?_⟩
  · have hmask : s.optBusy = false → (applyReset s).obNwrp = s.obNwrp := fun hb => by
      simp [applyReset, maskAfterReset, hb]
    have hready : (applyReset s).rxReady = false := by simp [State.rxReady, applyReset, hr]
    exact ⟨applyReset s, step_of_reset hr, rfl, rfl, rfl, rfl, rfl, rfl, rfl, hmask, rfl, rfl, rfl, rfl, hready, rfl,
      fun n => read?_forgetAll_other s.mem _⟩
  · refine ⟨applyReset (powerUp s), applyReset { s with rstN := false }, step_of_reset rfl, step_of_reset rfl, rfl,
      fun n hin => ?_, fun n hout => ?_⟩
    · show (memAfterReset (powerUp s)).read? n = (memAfterReset s).read? n
      rw [memAfterReset_powerUp]
      exact read?_forgetAll_other _ _ (by simp [hin])
    · show (memAfterReset (powerUp s)).read? n = none
      rw [memAfterReset_powerUp]
      exact read?_forgetAll_same _ _ (by simp [hout])

/-! ## Before and after a reset -/

/-- Settles O22, by the step's equation in DEAD and under reset. -/
theorem deadUntilReset : Obligations.DeadUntilReset :=
  fun s hp => ⟨fun hr => step_of_dead hr hp, fun hr => ⟨applyReset s, step_of_reset hr, rfl⟩⟩

/-- Settles O45: the block is at rest, with `CrcReset()` alone to do, which leads from rest to rest. -/
theorem resetIsOrderly : Obligations.ResetIsOrderly := by
  have hrest : atStage .rest State.reset := ⟨rfl, rfl, rfl, rfl, rfl, rfl⟩
  have hsettles : Stage.rest.settles State.reset.step = true := by decide
  exact ⟨⟨.rest, rfl, rfl, hrest, hsettles⟩, frameTracked_of_rxLen rfl, rfl⟩

/-- Settles O59: a reset leaves `CrcReset()` in `STEP` (R281), and the next step resumes there. -/
theorem firstActResetsTheAccumulator : Obligations.FirstActResetsTheAccumulator := by
  intro s hr hg
  refine ⟨applyReset s, step_of_reset hr, rfl, rfl, ?_⟩
  have hadvance : advance .crcReset { setRstN true (applyReset s) with step := [] } =
      .done (perform .crcReset { setRstN true (applyReset s) with step := [] }) :=
    advance_free hg (waitsOn_of_idle _ rfl)
  rw [step_of_rxLen_due (ops := []) rfl rfl rfl]
  exact congrArg _ (run_cons_of_done hadvance)

end Sys2Proof.Machine
end

section
/-! PROOFS. The operands that the decoder cuts from a frame are the operand latches of `FB` (spec/10_state.md R24). -/

namespace Sys2Proof

/-! ## What a decoded command tells of its frame (R139, R140) -/

/-- A command is decoded when its own row is looked up, the payload reaches `NEED`, and the operands are cut from it. -/
theorem decodeBody_eq_ok {frame : List Byte} {i : Instr} (h : decodeBody frame = .ok i) :
    opcodeOf (byteAt frame 1) = some (rowOf i) ∧
      need (formatOf (rowOf i)) (payloadOf frame) ≤ (payloadOf frame).length ∧
      operandsOf (rowOf i) (payloadOf frame) = i := by
  unfold decodeBody at h
  split at h
  · cases h
  next o ho =>
    split at h
    · cases h
    next hneed =>
      injection h with h
      have hrow : rowOf i = o := h ▸ rowOf_operandsOf o _
      exact hrow.symm ▸ ⟨ho, Nat.le_of_not_lt hneed, h⟩

/-- The two conditions of format WRITE (R108). -/
theorem need_write_le {p : List Byte} (h : need .write p ≤ p.length) : 5 + (byteAt p 4).toNat ≤ p.length := by
  simp only [need] at h
  split at h <;> omega

theorem byteAt_drop (bs : List Byte) (m k : Nat) : byteAt (bs.drop m) k = byteAt bs (m + k) := by
  simp [byteAt, List.getD_eq_getElem?_getD]

theorem byteAt_take {bs : List Byte} {m k : Nat} (hk : k < m) : byteAt (bs.take m) k = byteAt bs k := by
  simp [byteAt, List.getD_eq_getElem?_getD, hk]

namespace Machine

/-! ## The payload in `FB` (R24, R90) -/

/-- The payload is the `PLEN` bytes of `FB` from index 2 on. -/
theorem payloadOf_frame {s : State} (hlen : 5 ≤ s.len.toNat) :
    payloadOf s.frame = (s.fb.toList.drop 2).take s.latchPlen := by
  have hlt := s.len.isLt
  have hsize : s.frame.length = s.len.toNat + 1 := by
    simp [State.frame, State.frameSize]
    omega
  rw [payloadOf, windowOf, hsize, State.frame, State.frameSize, List.take_take, List.drop_take, State.latchPlen]
  congr 1
  omega

theorem payloadOf_frame_length {s : State} (hlen : 5 ≤ s.len.toNat) :
    (payloadOf s.frame).length = s.latchPlen := by
  have hlt := s.len.isLt
  have hplen : s.latchPlen = s.len.toNat - 5 := rfl
  rw [payloadOf_frame hlen, List.length_take, List.length_drop, Vector.length_toList]
  omega

theorem byteAt_payload {s : State} (hlen : 5 ≤ s.len.toNat) {k : Nat} (hk : k < (payloadOf s.frame).length) :
    byteAt (payloadOf s.frame) k = s.fbAt (2 + k) := by
  rw [payloadOf_frame_length hlen] at hk
  rw [payloadOf_frame hlen, byteAt_take hk, byteAt_drop, State.fbAt]

theorem wordAt_payload {s : State} (hlen : 5 ≤ s.len.toNat) (hk : 4 ≤ (payloadOf s.frame).length) :
    wordAt (payloadOf s.frame) 0 = s.latchAddr := by
  simp only [wordAt]
  rw [byteAt_payload hlen (by omega), byteAt_payload hlen (by omega), byteAt_payload hlen (by omega),
    byteAt_payload hlen (by omega)]
  rfl

theorem data_payload {s : State} (hlen : 5 ≤ s.len.toNat)
    (hk : 5 + s.latchDlen.toNat ≤ (payloadOf s.frame).length) :
    ((payloadOf s.frame).drop 5).take s.latchDlen.toNat = s.latchData := by
  rw [payloadOf_frame_length hlen] at hk
  rw [payloadOf_frame hlen, List.drop_take, List.drop_drop, List.take_take, State.latchData]
  congr 1
  omega

/-- Settles O4: `NEED` puts every operand inside the payload (`decodeBody_eq_ok`), and the payload stands in `FB` from
index 2 on (`byteAt_payload`). -/
theorem operandsAreTheLatches : Obligations.OperandsAreTheLatches := by
  intro s hlen
  refine ⟨payloadOf_frame_length hlen, fun addr h => ?_, fun sec cnt h => ?_, fun addr data h => ?_,
    fun mask flag h => ?_, fun addr dlen h => ?_⟩
  · obtain ⟨-, (hneed : 4 ≤ _), hops⟩ := decodeBody_eq_ok h
    injection hops with haddr
    exact haddr.symm.trans (wordAt_payload hlen hneed)
  · obtain ⟨-, (hneed : 2 ≤ _), hops⟩ := decodeBody_eq_ok h
    injection hops with hsec hcnt
    exact ⟨hsec.symm.trans (byteAt_payload hlen (by omega)), hcnt.symm.trans (byteAt_payload hlen (by omega))⟩
  · obtain ⟨-, hneed, hops⟩ := decodeBody_eq_ok h
    injection hops with haddr hdata
    have hbytes := need_write_le hneed
    have hdlen : byteAt (payloadOf s.frame) 4 = s.latchDlen := byteAt_payload hlen (by omega)
    rw [hdlen] at hbytes hdata
    have hlatch : data = s.latchData := hdata.symm.trans (data_payload hlen hbytes)
    refine ⟨haddr.symm.trans (wordAt_payload hlen (by omega)), hlatch, ?_⟩
    rw [← hdata, List.length_take, List.length_drop]
    omega
  · obtain ⟨-, (hneed : 2 ≤ _), hops⟩ := decodeBody_eq_ok h
    injection hops with hmask hflag
    exact ⟨hmask.symm.trans (byteAt_payload hlen (by omega)), hflag.symm.trans (byteAt_payload hlen (by omega))⟩
  · obtain ⟨-, (hneed : 5 ≤ _), hops⟩ := decodeBody_eq_ok h
    injection hops with haddr hdlen
    exact ⟨haddr.symm.trans (wordAt_payload hlen (by omega)), hdlen.symm.trans (byteAt_payload hlen (by omega))⟩

end Machine

end Sys2Proof
end

section
/-! PROOFS. The brackets of spec/20_memory.md R75 (b): what one entry of `STEP` does to them, that every list the block
runs leads from rest back to rest, and so that a run, a command and a step keep them. -/

namespace Sys2Proof.Machine

/-! ## Brackets along a trace -/

theorem scan_append (b : Brackets) (es es' : List Event) : b.scan (es ++ es') = (b.scan es).bind (·.scan es') := by
  induction es generalizing b with
  | nil => rfl
  | cons e es ih =>
    simp only [List.cons_append, Brackets.scan]
    cases b.next e with
    | none => rfl
    | some c => exact ih c

/-- The events between the two states lead from the first brackets to the second. -/
def BracketsLead (b : Brackets) (s : State) (b' : Brackets) (t : State) : Prop :=
  ∃ es : List Event, t.trace = s.trace ++ es ∧ b.scan es = some b'

theorem BracketsLead.refl (b : Brackets) (s : State) : BracketsLead b s b s := ⟨[], (List.append_nil _).symm, rfl⟩

theorem BracketsLead.trans {b b' b'' : Brackets} {s t u : State} (h : BracketsLead b s b' t)
    (h' : BracketsLead b' t b'' u) : BracketsLead b s b'' u := by
  obtain ⟨es, htrace, hscan⟩ := h
  obtain ⟨es', htrace', hscan'⟩ := h'
  exact ⟨es ++ es', by rw [htrace', htrace, List.append_assoc], by rw [scan_append, hscan]; exact hscan'⟩

/-- One more event, where its bracket is open. -/
theorem BracketsLead.event {b b' : Brackets} {s t : State} {e : Event} (ht : t.trace = s.trace ++ [e])
    (hn : b.next e = some b') : BracketsLead b s b' t := ⟨[e], ht, by simp [Brackets.scan, hn]⟩

/-- What the environment does at a launch opens and closes nothing. -/
theorem bracketsLead_launchMoves (b : Brackets) (s : State) : BracketsLead b s b (launchMoves s) := by
  obtain h | h | ⟨-, -, h⟩ := launchMoves_cases s <;> rw [h]
  · exact .refl b s
  · exact .refl b s
  · exact .event rfl rfl

theorem bracketsLead_whileHeld (b : Brackets) (op : Op) (s : State) : BracketsLead b s b (whileHeld op s) := by
  unfold whileHeld
  split
  · exact bracketsLead_launchMoves b s
  · exact .refl b s

theorem bracketsLead_wait (b : Brackets) (s : State) : BracketsLead b s b (primWaitOptIdle s) := by
  refine .trans (b' := b) (t := if s.optBusy then optComplete (takeOpt s) else s) ?_ (.event rfl rfl)
  split
  · exact .event rfl rfl
  · exact .refl b s

/-! ## One entry (R75 (b)) -/

theorem mem_of_follow {st st' : Stage} {ms : List (Stage × Stage)} (h : follow st ms = some st') : (st, st') ∈ ms := by
  induction ms with
  | nil => cases h
  | cons m ms ih =>
    simp only [follow] at h
    split at h
    next hm =>
      injection h with h
      exact hm ▸ h ▸ List.mem_cons_self
    · exact List.mem_cons_of_mem _ (ih h)

/-- An entry that has its place leads from the brackets of its stage to those of the next: only the locks and unlocks move
between stages with different brackets, and what needs a bracket has its place only where that is open. -/
theorem perform_brackets {st st' : Stage} {op : Op} (hn : st.next op = some st') (s : State) :
    BracketsLead st.brackets s st'.brackets (perform op s) := by
  have hmem : (st, st') ∈ moves op := mem_of_follow hn
  have hsame : (moves op).all (fun m => decide (m.2.brackets = m.1.brackets)) = true → st'.brackets = st.brackets :=
    fun h => of_decide_eq_true (List.all_eq_true.1 h _ hmem)
  cases op with
  | flashUnlock | flashLock | massErase | programByte _ _ | optUnlock | optLock | optClearOptlock | optWriteNwrp _ =>
    obtain ⟨rfl, rfl⟩ := by simpa [moves] using hmem
    exact .event rfl rfl
  | eraseSector sec =>
    obtain ⟨rfl, rfl⟩ := by simpa [moves] using hmem
    simp only [perform]
    split
    · exact .event rfl rfl
    · exact .refl _ s
  | optSetOptstrt =>
    obtain ⟨rfl, rfl⟩ := by simpa [moves] using hmem
    simp only [perform, primOptSetOptstrt]
    split <;> exact .event rfl rfl
  | waitOptIdle =>
    rw [hsame rfl]
    exact bracketsLead_wait _ s
  | txNackIfBad =>
    rw [hsame rfl]
    simp only [perform]
    split
    · exact .refl _ s
    · exact .event rfl rfl
  | setStatus _ | massStatus | clearI | setNsec _ | judgeCrc | leaveVerify | enterRxLen | enterDead =>
    rw [hsame rfl]
    exact .refl _ s
  | crcReset | crcFeed _ | crcValue | tx _ | txStatus | txValue | txIdLow | txIdHigh | txRead | busWrite _ _ | busRead _
    | optReadNwrp | obReadRdp | dbgIdRead | go _ =>
    rw [hsame rfl]
    exact .event rfl rfl

/-- An entry that has its place writes `PH` only as the last of its list. -/
theorem perform_ph_of_next {st st' : Stage} {op : Op} (hn : st.next op = some st') (s : State) :
    st' = .ended ∨ (perform op s).ph = s.ph := by
  have hmem : (st, st') ∈ moves op := mem_of_follow hn
  obtain h | ⟨rfl, -⟩ | ⟨rfl, -⟩ | ⟨rfl, -⟩ := perform_ph op s
  · exact .inr h
  all_goals exact .inl (by simpa [moves] using (Prod.mk.inj (List.mem_singleton.1 hmem)).2)

/-! ## Lists of entries that lead to rest -/

theorem settles_cons {st : Stage} {op : Op} {ops : List Op} (h : st.settles (op :: ops) = true) :
    ∃ st', st.next op = some st' ∧ st'.settles ops = true := by
  simp only [Stage.settles, Stage.run] at h
  cases hn : st.next op with
  | none => simp [hn] at h
  | some st' =>
    simp only [hn] at h
    exact ⟨st', rfl, h⟩

theorem settles_nil {st : Stage} (h : st.settles [] = true) : st = .rest ∨ st = .ended := by
  simpa [Stage.settles, Stage.run, Stage.final] using h

theorem settles_append {st st' : Stage} {as : List Op} (bs : List Op) (h : st.run as = some st') :
    st.settles (as ++ bs) = st'.settles bs := by rw [Stage.settles, stageRun_append bs h, Stage.settles]

/-- After the last entry of a list there is none. -/
theorem ended_settles {ops : List Op} (h : Stage.ended.settles ops = true) : ops = [] := by
  cases ops with
  | nil => rfl
  | cons op ops =>
    obtain ⟨st', hn, -⟩ := settles_cons h
    rw [next_ended] at hn
    cases hn

/-- Entries that keep a stage, one after the other. -/
theorem stageRun_stays {st : Stage} {ops : List Op} (h : ∀ op ∈ ops, st.next op = some st) : st.run ops = some st := by
  induction ops with
  | nil => rfl
  | cons op ops ih =>
    simp only [Stage.run, h op List.mem_cons_self]
    exact ih fun o ho => h o (List.mem_cons_of_mem _ ho)

/-- A loop whose body keeps a stage, as a list of its turns. -/
theorem stageRun_map {α : Type} {st : Stage} {f : α → Op} (h : ∀ a, st.next (f a) = some st) (as : List α) :
    st.run (as.map f) = some st :=
  stageRun_stays fun op hop => by
    obtain ⟨a, -, rfl⟩ := List.mem_map.1 hop
    exact h a

/-- Two lists, one after the other. -/
theorem stageRun_trans {st st₁ st₂ : Stage} {as bs : List Op} (ha : st.run as = some st₁)
    (hb : st₁.run bs = some st₂) : st.run (as ++ bs) = some st₂ := (stageRun_append bs ha).trans hb

theorem stageRun_flashEraseWork (c : Cfg) (sec cnt : Byte) :
    Stage.rest.run (flashEraseWork c sec cnt) = some .rest := by
  unfold flashEraseWork
  split
  · rfl
  split
  · rfl
  · refine stageRun_trans (st₁ := .flash) (stageRun_trans (st₁ := .flash) rfl (stageRun_stays fun op hop => ?_)) rfl
    rw [List.eq_of_mem_replicate hop]
    rfl

theorem stageRun_memWriteWork (c : Cfg) (addr : Word) (data : List Byte) :
    Stage.rest.run (memWriteWork c addr data) = some .rest := by
  unfold memWriteWork
  split
  · rfl
  · exact stageRun_trans (st₁ := .flash) (stageRun_trans (st₁ := .flash) rfl (stageRun_map (fun _ => rfl) data)) rfl
  · exact stageRun_trans (st₁ := .rest) (stageRun_trans (st₁ := .rest) rfl (stageRun_map (fun _ => rfl) data)) rfl

theorem stageRun_readTurns (addr : Word) (n : Nat) : Stage.rest.run (readTurns addr n) = some .rest :=
  stageRun_stays fun op hop => by obtain rfl | rfl := mem_readTurns hop <;> rfl

/-- Every handler leads from rest back to rest (R172, R188, R205). -/
theorem handlerOps_settle (c : Cfg) (i : Instr) : Stage.rest.settles (handlerOps c i) = true := by
  cases i with
  | getVersion | getChipId | getReadoutProtectionStatus | readSectorStatus | otpRead | disableWriteProtect => rfl
  | getHelp => exact settles_append _ (stageRun_trans (st₁ := .rest) rfl (stageRun_map (fun _ => rfl) c.helpList))
  | goToAddress addr =>
    simp only [handlerOps, goToAddressOps]
    split <;> rfl
  | flashErase sec cnt =>
    exact settles_append _ (stageRun_trans (st₁ := .rest) rfl (stageRun_flashEraseWork c sec cnt))
  | memWrite addr data =>
    exact settles_append _ (stageRun_trans (st₁ := .rest) rfl (stageRun_memWriteWork c addr data))
  | enableWriteProtect mask flag =>
    simp only [handlerOps, enableWriteProtectOps]
    split <;> rfl
  | memRead addr dlen =>
    exact settles_append _ (stageRun_trans (st₁ := .rest) rfl (stageRun_readTurns addr dlen.toNat))

theorem raiseOps_settle (c : Cfg) (k : RaisedKind) : Stage.rest.settles (raiseOps c k) = true := by cases k <;> rfl

/-- Verification leads from rest back to rest: the accumulator is reset after it has been read (R136). -/
theorem verifyOps_settle (s : State) : Stage.rest.settles (verifyOps s) = true := by
  unfold verifyOps
  split
  · cases hw : windowOf s.frame with
    | nil => rfl
    | cons b bs =>
      exact settles_append (st' := .feeding) _ (stageRun_map (st := .feeding) (f := Op.crcFeed) (fun _ => rfl) bs)
  · exact raiseOps_settle s.cfg _

end Sys2Proof.Machine
end

section
/-! PROOFS. Runs by stages: what a run of entries keeps whose place is known, and the two statements on the brackets of
spec/20_memory.md R75 (b), of a command from any state and of every step of an orderly machine. -/

namespace Sys2Proof.Machine

/-! ## A run, by stages -/

/-- A run of a list that leads to rest, completed or held, is at some stage from which what it has left leads to rest: it
keeps every statement about stage and state that an entry carries from its stage to the next. -/
theorem run_stage_induction {P : Stage → State → Prop} (hstep : ∀ st a l, P st a → P st { a with step := l })
    (hspend : ∀ st a, P st a → P st (spend a))
    (hheld : ∀ {st st' op a}, st.next op = some st' → P st a → P st (whileHeld op a))
    (hperform : ∀ {st st' op a}, st.next op = some st' → P st a → P st' (perform op a)) :
    ∀ (ops : List Op) (st : Stage) (s : State), s.step = [] → st.settles ops = true → P st s →
      ∃ st', P st' (run ops s) ∧ st'.settles (run ops s).step = true ∧ (run ops s).step <:+ ops
  | [], st, s, hs, hset, h => ⟨st, h, by rwa [run_nil, hs], by rw [run_nil, hs]⟩
  | op :: ops, st, s, hs, hset, h => by
    obtain ⟨st₁, hn, hset₁⟩ := settles_cons hset
    have hrest : ∀ a, a.step = [] → P st a →
        ∃ st', P st' (run ops (perform op a)) ∧ st'.settles (run ops (perform op a)).step = true ∧
          (run ops (perform op a)).step <:+ op :: ops := fun a ha hPa => by
      obtain ⟨st', hP, hset', hsuffix⟩ := run_stage_induction hstep hspend hheld hperform ops st₁ (perform op a)
        (by rwa [perform_step]) hset₁ (hperform hn hPa)
      exact ⟨st', hP, hset', hsuffix.trans (List.suffix_cons op ops)⟩
    obtain ⟨-, ha⟩ | ⟨-, -, ha⟩ | ⟨-, -, ha⟩ := advance_cases op s
    · rw [run_cons_of_done ha]
      exact hrest s hs h
    · rw [run_cons_of_hold ha]
      exact ⟨st, hstep _ _ _ (hheld hn h), hset, List.suffix_refl _⟩
    · rw [run_cons_of_done ha]
      exact hrest (spend s) hs (hspend _ _ h)

/-- A run from rest brackets what it does: the brackets are those of a stage from which what is left leads to rest. -/
theorem run_bracketsLead {ops : List Op} {s : State} (hs : s.step = []) (hset : Stage.rest.settles ops = true) :
    ∃ st : Stage, BracketsLead Brackets.closed s st.brackets (run ops s) ∧ st.settles (run ops s).step = true := by
  obtain ⟨st, hlead, hset', -⟩ :=
    run_stage_induction (P := fun st a => BracketsLead Brackets.closed s st.brackets a) (fun _ _ _ h => h)
      (fun _ _ h => h) (fun _ h => h.trans (bracketsLead_whileHeld _ _ _)) (fun hn h => h.trans (perform_brackets hn _))
      ops .rest s hs hset (.refl _ s)
  exact ⟨st, hlead, hset'⟩

theorem brackets_of_settles_nil {st : Stage} (h : st.settles [] = true) : st.brackets = Brackets.closed := by
  obtain rfl | rfl := settles_nil h <;> rfl

/-- Settles O49: a handler's entries each have their place from rest on (`handlerOps_settle`), and each keeps the brackets
of its stage (`perform_brackets`), from any state. -/
theorem everyMutationIsBracketed : Obligations.EveryMutationIsBracketed := by
  intro s t i ht
  rw [exec_eq] at ht
  obtain rfl := Host.Outcome.next.inj ht
  obtain ⟨st, ⟨es, htrace, hscan⟩, hset⟩ :=
    run_bracketsLead (s := { s with ph := .exec, step := [] }) rfl (handlerOps_settle s.cfg i)
  refine ⟨es, htrace, by rw [hscan]; rfl, fun hdone => ?_⟩
  rw [startHandler] at hdone
  rw [hdone] at hset
  rw [hscan, brackets_of_settles_nil hset]

/-! ## An orderly state's entries -/

/-- The stage of a state does not depend on the sequencer position, the frame or the receive stream. -/
theorem atStage_position {st : Stage} {s : State} (l : List Op) (p : Phase) (fb : Vector Byte 256) (n : Byte)
    (k : BitVec 9) (q : List Byte) (h : atStage st s) :
    atStage st { s with step := l, ph := p, fb := fb, len := n, idx := k, rxq := q } := by cases st <;> exact h

theorem atStage_emit {st : Stage} {s : State} (e : Event) (h : atStage st s) : atStage st (emit e s) := by
  cases st <;> exact h

/-- In the receive phases but for what a reset leaves in RX_LEN, and in DEAD, an orderly state has nothing left to do. -/
theorem step_nil_of_not_runsEntries {s : State} (hfit : s.step.all (fits s.ph) = true) (hp : ¬ RunsEntries s) :
    s.step = [] := by
  cases hs : s.step with
  | nil => rfl
  | cons op ops =>
    rw [hs, List.all_cons, Bool.and_eq_true] at hfit
    obtain ⟨hop, -⟩ := hfit
    cases hph : s.ph with
    | rxLen => exact absurd (.inl ⟨hph, by simp [hs]⟩) hp
    | verify => exact absurd (.inr (.inl hph)) hp
    | exec => exact absurd (.inr (.inr hph)) hp
    | rxBody | dead => rw [hph] at hop; cases op <;> cases hop

theorem step_of_runsEntries {s : State} (hr : s.rstN = true) (hp : RunsEntries s) :
    step s = .next (run (dueOps s) { s with step := [] }) := by
  obtain ⟨hp, hne⟩ | hp := hp
  · obtain ⟨op, ops, hs⟩ := List.exists_cons_of_ne_nil hne
    rw [step_of_rxLen_due hr hp hs, resume, dueOps_of_step hs, hs]
  · exact step_of_running hr hp

/-- The list a phase starts with leads from rest back to rest. -/
theorem dueOps_settle_of_start {s : State} (hs : s.step = []) (hp : RunsEntries s) :
    Stage.rest.settles (dueOps s) = true := by
  obtain ⟨-, hne⟩ | hp | hp := hp
  · exact absurd hs hne
  · rw [dueOps_of_verify hp hs]
    exact verifyOps_settle s
  · cases hd : decodeBody s.frame with
    | ok i => exact dueOps_of_decoded hp hs hd ▸ handlerOps_settle s.cfg i
    | error k => exact dueOps_of_raised hp hs hd ▸ raiseOps_settle s.cfg k

/-- The entries that are due lead to rest from a stage of the state with the same brackets: its own where a hold has left
them, rest at the start of a phase. -/
theorem dueOps_settle {st : Stage} {s : State} (hat : atStage st s) (hset : st.settles s.step = true)
    (hp : RunsEntries s) :
    ∃ st₀ : Stage, st₀.brackets = st.brackets ∧ atStage st₀ s ∧ st₀.settles (dueOps s) = true := by
  cases hs : s.step with
  | cons op ops => exact ⟨st, rfl, hat, by rwa [dueOps_of_step hs, ← hs]⟩
  | nil =>
    rw [hs] at hset
    refine ⟨.rest, (brackets_of_settles_nil hset).symm, ?_, dueOps_settle_of_start hs hp⟩
    obtain rfl | rfl := settles_nil hset <;> exact hat

/-! ## A step of an orderly machine (R75 (b)) -/

/-- How a run that began in `s` at stage `st` stands when it is in state `t` at stage `st'`. -/
structure RunStands (st : Stage) (s : State) (st' : Stage) (t : State) : Prop where
  canonical : t.mem.wf = true
  stage : atStage st' t
  phase : st' = .ended ∨ t.ph = s.ph
  brackets : BracketsLead st.brackets s st'.brackets t

theorem runStands_perform {st st' st'' : Stage} {s a : State} {op : Op} (hn : st'.next op = some st'')
    (h : RunStands st s st' a) : RunStands st s st'' (perform op a) where
  canonical := perform_wf op h.canonical
  stage := perform_stage h.stage hn
  phase := by
    have hne : st' ≠ .ended := by rintro rfl; rw [next_ended] at hn; cases hn
    exact (perform_ph_of_next hn a).imp_right fun hph => hph.trans (h.phase.resolve_left hne)
  brackets := h.brackets.trans (perform_brackets hn a)

theorem whileHeld_ph (op : Op) (s : State) : (whileHeld op s).ph = s.ph := by unfold whileHeld; split <;> simp

theorem whileHeld_mem (op : Op) (s : State) : (whileHeld op s).mem = s.mem := by unfold whileHeld; split <;> simp

theorem runStands_held {st st' st'' : Stage} {s a : State} {op : Op} (hn : st'.next op = some st'')
    (h : RunStands st s st' a) : RunStands st s st' (whileHeld op a) where
  canonical := by rw [whileHeld_mem]; exact h.canonical
  stage := whileHeld_stage h.stage hn
  phase := by rw [whileHeld_ph]; exact h.phase
  brackets := h.brackets.trans (bracketsLead_whileHeld _ op a)

/-- A run of a phase's own entries that lead to rest ends orderly, and keeps the brackets. -/
theorem run_keeps_orderlyAt {st : Stage} {s : State} {ops : List Op} (hwf : s.mem.wf = true)
    (hfit : ∀ op ∈ ops, fits s.ph op = true) (hat : atStage st s) (hset : st.settles ops = true) :
    ∃ st' : Stage, OrderlyAt st' (run ops { s with step := [] }) ∧
      BracketsLead st.brackets s st'.brackets (run ops { s with step := [] }) := by
  have hstart : RunStands st s st { s with step := [] } :=
    ⟨hwf, atStage_position [] s.ph s.fb s.len s.idx s.rxq hat, .inr rfl, .refl _ s⟩
  obtain ⟨st', ⟨hwf', hat', hph, hlead⟩, hset', hsuffix⟩ :=
    run_stage_induction (P := RunStands st s)
      (fun _ a l h => ⟨h.canonical, atStage_position l a.ph a.fb a.len a.idx a.rxq h.stage, h.phase, h.brackets⟩)
      (fun _ _ h => ⟨h.canonical, spend_stage h.stage, h.phase, h.brackets⟩) runStands_held runStands_perform
      ops st { s with step := [] } rfl hset hstart
  refine ⟨st', ⟨hwf', ?_, hat', hset'⟩, hlead⟩
  obtain rfl | hph := hph
  · rw [ended_settles hset']
    rfl
  · rw [hph]
    exact List.all_eq_true.2 fun op hop => hfit op (hsuffix.subset hop)

/-- A state with nothing left to do stays orderly, whatever becomes of position, frame and receive stream. -/
theorem orderlyAt_position {st : Stage} {s : State} (p : Phase) (fb : Vector Byte 256) (n : Byte) (k : BitVec 9)
    (q : List Byte) (hs : s.step = []) (h : OrderlyAt st s) :
    OrderlyAt st { s with ph := p, fb := fb, len := n, idx := k, rxq := q } := by
  obtain ⟨hwf, -, hat, hset⟩ := h
  exact ⟨hwf, by simp [hs], atStage_position s.step p fb n k q hat, hset⟩

/-- Nor does taking a byte touch the devices. -/
theorem orderlyAt_takes {st : Stage} {s : State} (b : Byte) (p : Phase) (fb : Vector Byte 256) (n : Byte) (k : BitVec 9)
    (q : List Byte) (hs : s.step = []) (h : OrderlyAt st s) :
    OrderlyAt st (emit (.rx b) { spend s with ph := p, fb := fb, len := n, idx := k, rxq := q }) := by
  obtain ⟨hwf, hfit, hat, hset⟩ := orderlyAt_position p fb n k q hs h
  exact ⟨hwf, hfit, atStage_emit (.rx b) (spend_stage hat), hset⟩

/-- Every step keeps an orderly state orderly, and its events lead from the brackets of the one stage to those of the
other. -/
theorem step_keeps_orderlyAt {s t : State} {st : Stage} (hr : s.rstN = true) (ho : OrderlyAt st s)
    (ht : step s = .next t) : ∃ st' : Stage, OrderlyAt st' t ∧ BracketsLead st.brackets s st'.brackets t := by
  have ⟨hwf, hfit, hat, hset⟩ := ho
  by_cases hp : RunsEntries s
  · obtain rfl := Host.Outcome.next.inj ((step_of_runsEntries hr hp).symm.trans ht)
    obtain ⟨st₀, hbr, hat₀, hset₀⟩ := dueOps_settle hat hset hp
    exact hbr ▸ run_keeps_orderlyAt hwf (dueOps_fit hfit hp) hat₀ hset₀
  · have hs : s.step = [] := step_nil_of_not_runsEntries hfit hp
    refine ⟨st, ?_⟩
    cases step_outcome hr ht with
    | stays => exact ⟨ho, .refl _ s⟩
    | takesLength b rest =>
      exact ⟨orderlyAt_takes b _ _ _ _ rest hs ho, .event rfl rfl⟩
    | takesBody b rest =>
      exact ⟨orderlyAt_takes b _ _ _ _ rest hs ho, .event rfl rfl⟩
    | endsBody => exact ⟨orderlyAt_position .verify s.fb s.len s.idx s.rxq hs ho, .refl _ s⟩
    | runs hrun => exact absurd hrun hp

/-- Settles O60: a step runs the entries that are due, each in its place (`run_keeps_orderlyAt`), or it receives, which
touches neither devices nor brackets. -/
theorem stepKeepsBrackets : Obligations.StepKeepsBrackets := by
  intro s t st hr ho ht
  obtain ⟨st', ho', es, htrace, hscan⟩ := step_keeps_orderlyAt hr ho ht
  exact ⟨es, st', htrace, ho', hscan⟩

end Sys2Proof.Machine
end

section
/-! PROOFS. MemWrite to volatile memory: what its loop leaves in memory (spec/43_mem_write_read.md R185, R190), and that
the bytes written are there afterwards where memories keep what is written (spec/20_memory.md R70, R77). -/

namespace Sys2Proof.Machine

/-! ## The addresses of a loop (R110, R191) -/

theorem add_ofNat_succ (a : Word) (k : Nat) : a + BitVec.ofNat 32 (k + 1) = a + 1#32 + BitVec.ofNat 32 k := by
  rw [Nat.add_comm, BitVec.ofNat_add, BitVec.add_assoc]

theorem turnAddr_succ (addr : Word) {i : BitVec 9} (hi : i.toNat + 1 < 512) :
    turnAddr addr (i + 1#9) = turnAddr addr i + 1#32 := by
  have hw : (i + 1#9).setWidth 32 = i.setWidth 32 + 1#32 := by
    apply BitVec.eq_of_toNat_eq
    simp only [BitVec.toNat_setWidth, BitVec.toNat_add, BitVec.toNat_ofNat]
    omega
  rw [turnAddr, hw, turnAddr, BitVec.add_assoc]

theorem turnAddr_zero (addr : Word) : turnAddr addr 0#9 = addr := by simp [turnAddr]

/-! ## What the loop leaves in memory -/

/-- The turns of MemWrite's volatile-memory loop, performed, leave in memory what `busWritten` says. -/
theorem performAll_busWrite_mem (addr : Word) (data : List Byte) (s : State) (hi : s.i.toNat + data.length < 512) :
    (performAll (data.map (.busWrite addr)) s).mem =
      busWritten s.cfg s.env.memKeeps (turnAddr addr s.i) data s.mem := by
  induction data generalizing s with
  | nil => rfl
  | cons d ds ih =>
    rw [List.length_cons] at hi
    have hnext : (perform (.busWrite addr d) s).i = s.i + 1#9 := rfl
    have hcount : (s.i + 1#9).toNat = s.i.toNat + 1 := by
      simp only [BitVec.toNat_add, BitVec.toNat_ofNat]
      omega
    rw [List.map_cons, performAll_cons, ih _ (by rw [hnext, hcount]; omega), hnext,
      turnAddr_succ addr (by omega), perform_cfg, perform_memKeeps]
    rfl

/-- A MemWrite to volatile memory leaves in memory what its loop does. -/
theorem execMemWrite_volatile_mem {s t : State} {addr : Word} {data : List Byte} (hg : s.env.grant = none)
    (hwf : (Instr.memWrite addr data).wf = true) (hv : classify s.cfg addr = .volatileMemory)
    (ht : exec (.memWrite addr data) s = .next t) :
    t.mem = busWritten s.cfg s.env.memKeeps addr data s.mem := by
  rw [wf_memWrite] at hwf
  have hops : handlerOps s.cfg (.memWrite addr data) =
      (ackHeader 1#8 ++ [.clearI]) ++ data.map (.busWrite addr) ++ [.setStatus Config.stOk, .txStatus, .enterRxLen] := by
    simp [handlerOps, memWriteOps, memWriteWork, hv]
  rw [exec_eq, hops, startHandler_free _ _ hg (by simp [ackHeader])] at ht
  obtain rfl := Host.Outcome.next.inj ht
  rw [performAll_append, performAll_append]
  exact (performAll_busWrite_mem addr data _ (by show 0 + data.length < 512; omega)).trans
    (congrArg (busWritten s.cfg s.env.memKeeps · data s.mem) (turnAddr_zero addr))

/-! ## Reading it back -/

/-- The loop leaves alone what it does not address. -/
theorem read?_busWritten_other (c : Cfg) (keeps : Bool) (a : Word) (data : List Byte) (m : Memory) {n : Nat}
    (hn : ∀ k, k < data.length → n ≠ (a + BitVec.ofNat 32 k).toNat) :
    (busWritten c keeps a data m).read? n = m.read? n := by
  induction data generalizing a m with
  | nil => rfl
  | cons d ds ih =>
    have hfirst : n ≠ a.toNat := by simpa using hn 0 (Nat.succ_pos _)
    rw [busWritten, ih]
    · split
      · exact read?_write_other m d hfirst
      · exact read?_forget_other m hfirst
    · intro k hk
      exact add_ofNat_succ a k ▸ hn (k + 1) (Nat.succ_lt_succ hk)

/-- Where memory keeps what is written, byte `k` of the data is at `a + k`: no later turn comes back to it. -/
theorem read?_busWritten (c : Cfg) (a : Word) (data : List Byte) (m : Memory) (hlen : data.length ≤ 2 ^ 32)
    (hv : ∀ k, k < data.length → inVolatile c (a + BitVec.ofNat 32 k) = true) :
    ∀ k, k < data.length → (busWritten c true a data m).read? (a + BitVec.ofNat 32 k).toNat = data[k]? := by
  induction data generalizing a m with
  | nil => intro k hk; cases hk
  | cons d ds ih =>
    rw [List.length_cons] at hlen hv ⊢
    have hfirst : inVolatile c a = true := by simpa using hv 0 (Nat.succ_pos _)
    rintro (_ | k) hk
    · rw [busWritten, read?_busWritten_other]
      · simp [hfirst]
      · intro j hj heq
        simp only [BitVec.toNat_add, BitVec.toNat_ofNat] at heq
        omega
    · rw [add_ofNat_succ]
      exact ih (a + 1#32) _ (by omega) (fun j hj => add_ofNat_succ a j ▸ hv (j + 1) (by omega)) k (by omega)

/-- Settles O31: the loop's bytes stand where it wrote them (`read?_busWritten`), and nothing after it touches memory. -/
theorem writtenBytesReadBack : Obligations.WrittenBytesReadBack := by
  intro s t addr data hg hkeeps hwf _ hv hin ht
  have hfits := (wf_memWrite addr data).1 hwf
  rw [execMemWrite_volatile_mem hg hwf hv ht, hkeeps]
  exact read?_busWritten s.cfg addr data s.mem (by omega) hin

end Sys2Proof.Machine
end

section
/-! PROOFS. Encoding and decoding (spec/30_encoding.md): the parts of an encoded frame, that decoding it gives the
command back whatever follows (R90 to R93, R109, R114), and that a decoded command stands in its frame byte for byte (R100 to
R108). -/

namespace Sys2Proof

/-! ## The parts of a frame (R90 to R94, R114) -/

/-- The length byte of a frame counts the bytes after it: opcode, payload and checksum (R91). -/
theorem toNat_lengthByte {n : Nat} (hn : n ≤ 250) : (BitVec.ofNat 8 (5 + n)).toNat = 5 + n := by
  rw [BitVec.toNat_ofNat]
  omega

/-- A frame is its checksum window and the checksum of that (R114). -/
theorem frameOf_eq (c : Cfg) (opc : Byte) (p : List Byte) :
    frameOf c opc p = (BitVec.ofNat 8 (5 + p.length) :: opc :: p) ++
      le32Bytes (crcOf c (BitVec.ofNat 8 (5 + p.length) :: opc :: p)) := rfl

/-- The checksum window of a frame is what stands before its checksum (R92). -/
theorem windowOf_frameOf (c : Cfg) (opc : Byte) (p : List Byte) :
    windowOf (frameOf c opc p) = BitVec.ofNat 8 (5 + p.length) :: opc :: p := by
  rw [windowOf, frameOf_eq, List.length_append, le32Bytes_length, Nat.add_sub_cancel]
  exact List.take_left

theorem payloadOf_frameOf (c : Cfg) (opc : Byte) (p : List Byte) : payloadOf (frameOf c opc p) = p := by
  rw [payloadOf, windowOf_frameOf]
  rfl

/-- The bytes of a word, wherever they stand, are read back as the word (R15). -/
theorem wordAt_le32Bytes (as bs : List Byte) (v : Word) : wordAt (as ++ (le32Bytes v ++ bs)) as.length = v := by
  have hbyte (k : Nat) : byteAt (as ++ (le32Bytes v ++ bs)) (as.length + k) = byteAt (le32Bytes v ++ bs) k :=
    byteAt_append_right _ _ k
  rw [wordAt, hbyte 1, hbyte 2, hbyte 3, ← Nat.add_zero as.length, hbyte 0]
  exact le32_le32Bytes v

/-- The host checksum of a frame is the checksum of its window (R93). -/
theorem verifies_frameOf (c : Cfg) (opc : Byte) (p : List Byte) : verifies c (frameOf c opc p) = true := by
  rw [verifies, decide_eq_true_iff, windowOf_frameOf, hostCrcOf, frameOf_eq, List.length_append, le32Bytes_length,
    Nat.add_sub_cancel]
  exact (List.append_nil (le32Bytes _) ▸ wordAt_le32Bytes _ [] _).symm

theorem wellFramed_frameOf (c : Cfg) (opc : Byte) {p : List Byte} (hp : p.length ≤ 250) :
    wellFramed (frameOf c opc p) = true := by
  have hlen : (byteAt (frameOf c opc p) 0).toNat = 5 + p.length := toNat_lengthByte hp
  rw [wellFramed, decide_eq_true_iff, BitVec.lt_def, hlen]
  exact Nat.lt_add_right p.length (by decide)

/-- A length byte and as many bytes as it says are cut off, whatever follows them (R91, R133). -/
theorem delimit_append {len : Byte} {body : List Byte} (hlen : len.toNat = body.length) (rest : List Byte) :
    delimit (len :: (body ++ rest)) = some (len :: body, rest) := by
  rw [delimit, hlen, if_pos (List.prefix_append body rest).length_le, List.take_left, List.drop_left]

theorem delimit_frameOf (c : Cfg) (opc : Byte) {p : List Byte} (hp : p.length ≤ 250) (rest : List Byte) :
    delimit (frameOf c opc p ++ rest) = some (frameOf c opc p, rest) := by
  refine delimit_append (body := opc :: (p ++ le32Bytes _)) ?_ rest
  rw [toNat_lengthByte hp, List.length_cons, List.length_append, le32Bytes_length]
  omega

/-- Decoding a frame that fits is decoding its body: framing and checksum are in order (R257). -/
theorem decode_frameOf (c : Cfg) (opc : Byte) {p : List Byte} (hp : p.length ≤ 250) (rest : List Byte) :
    decode c (frameOf c opc p ++ rest) = some (decodeBody (frameOf c opc p), rest) := by
  simp [decode, delimit_frameOf c opc hp, decodeFrame, wellFramed_frameOf c opc hp, verifies_frameOf]

/-! ## The command in a frame's body (R100 to R109) -/

/-- A row whose operands the payload holds is decoded to the command cut from the payload (R139, R140). -/
theorem decodeBody_of_need {frame : List Byte} {o : Opcode} (ho : opcodeValue o = byteAt frame 1)
    (hneed : need (formatOf o) (payloadOf frame) ≤ (payloadOf frame).length) :
    decodeBody frame = .ok (operandsOf o (payloadOf frame)) := by
  simp [decodeBody, opcodeOf_eq_some.2 ho, Nat.not_lt.2 hneed]

/-- A well-formed command's operands are as long as its format needs (R108). -/
theorem need_operandBytes {i : Instr} (hwf : i.wf = true) :
    need (formatOf (rowOf i)) (operandBytes i) = (operandBytes i).length := by
  cases i with
  | memWrite addr data => exact (Laws.PayloadFits.memWrite addr data hwf).2
  | _ => rfl

/-- Payload bytes after the operands do not change how many are needed (R108, R109). -/
theorem need_append {f : Format} {p : List Byte} (hp : need f p ≤ p.length) (excess : List Byte) :
    need f (p ++ excess) = need f p := by
  cases f with
  | write =>
    have hlen : 5 ≤ p.length := Nat.le_trans (Nat.le_add_right 5 _) (need_write_le hp)
    have hlen' : 5 ≤ (p ++ excess).length := Nat.le_trans hlen (List.prefix_append p excess).length_le
    simp only [need, if_neg (Nat.not_lt.2 hlen), if_neg (Nat.not_lt.2 hlen'), byteAt_append_left p excess 4 hlen]
  | _ => rfl

/-- A well-formed command's operands are cut back out of a payload that begins with them (R101 to R107, R109). -/
theorem operandsOf_operandBytes {i : Instr} (hwf : i.wf = true) (excess : List Byte) :
    operandsOf (rowOf i) (operandBytes i ++ excess) = i := by
  cases i with
  | goToAddress addr => exact congrArg Instr.goToAddress (wordAt_le32Bytes [] excess addr)
  | memRead addr dlen => exact congrArg (Instr.memRead · dlen) (wordAt_le32Bytes [] (dlen :: excess) addr)
  | memWrite addr data =>
    have hlen : (BitVec.ofNat 8 data.length).toNat = data.length := by
      have := (wf_memWrite addr data).1 hwf
      rw [BitVec.toNat_ofNat]
      omega
    have hdata : (data ++ excess).take (BitVec.ofNat 8 data.length).toNat = data := by
      rw [hlen]
      exact List.take_left
    exact congrArg₂ Instr.memWrite (wordAt_le32Bytes [] _ addr) hdata
  | _ => rfl

/-- Settles O2: the frame is cut off and verified (`decode_frameOf`), its payload reaches `NEED` (`need_append`), and
the operands are cut back out of it (`operandsOf_operandBytes`). -/
theorem decodeEncodeRoundTrip : Obligations.DecodeEncodeRoundTrip := by
  intro c i excess rest hwf hfits
  have hpayload : payloadOf (encodeWith c i excess) = operandBytes i ++ excess := payloadOf_frameOf c _ _
  have hneed : need (formatOf (rowOf i)) (operandBytes i ++ excess) ≤ (operandBytes i ++ excess).length := by
    rw [need_append (need_operandBytes hwf).le, need_operandBytes hwf]
    exact (List.prefix_append _ _).length_le
  have hbody : decodeBody (encodeWith c i excess) = .ok (operandsOf (rowOf i) (operandBytes i ++ excess)) :=
    hpayload ▸ decodeBody_of_need rfl (hpayload.symm ▸ hneed)
  rw [encodeWith, decode_frameOf c _ hfits, ← encodeWith, hbody, operandsOf_operandBytes hwf]

/-! ## The frame of a decoded command (R100 to R108) -/

/-- The first bytes of a sequence, one by one. -/
theorem map_byteAt_range {p : List Byte} {n : Nat} (hn : n ≤ p.length) :
    (List.range n).map (byteAt p) = p.take n := by
  refine List.ext_getElem (by simp [hn]) fun k hk _ => ?_
  have hkp : k < p.length := by simp at hk; omega
  simp [byteAt, hkp]

/-- An address in front of a payload, as bytes. -/
theorem le32Bytes_wordAt {p : List Byte} (hp : 4 ≤ p.length) : le32Bytes (wordAt p 0) = p.take 4 :=
  (le32Bytes_le32 _ _ _ _).trans (map_byteAt_range hp)

/-- Address, length byte and data of formats READ and WRITE, as bytes (R104, R106). -/
theorem le32Bytes_wordAt_cons {p : List Byte} (hp : 5 ≤ p.length) (n : Nat) :
    le32Bytes (wordAt p 0) ++ byteAt p 4 :: (p.drop 5).take n = p.take (5 + n) := by
  have hfirst : le32Bytes (wordAt p 0) ++ [byteAt p 4] = p.take 5 := by
    rw [← map_byteAt_range hp, wordAt, le32Bytes_le32]
    rfl
  rw [List.take_add, ← hfirst, List.append_assoc, List.singleton_append]

/-- The data of a payload that reaches `NEED` are as many as its length byte says (R104, R108). -/
theorem length_data_of_need {p : List Byte} (hneed : need .write p ≤ p.length) :
    ((p.drop 5).take (byteAt p 4).toNat).length = (byteAt p 4).toNat := by
  have := need_write_le hneed
  rw [List.length_take, List.length_drop]
  omega

/-- The operand bytes of the command cut from a payload are those the payload begins with. -/
theorem operandBytes_operandsOf_prefix {o : Opcode} {p : List Byte} (hneed : need (formatOf o) p ≤ p.length) :
    operandBytes (operandsOf o p) <+: p := by
  cases o with
  | goToAddress => exact List.prefix_iff_eq_take.2 (le32Bytes_wordAt hneed)
  | flashErase | enableWriteProtect => exact List.prefix_iff_eq_take.2 (map_byteAt_range hneed)
  | memRead => exact List.prefix_iff_eq_take.2 (le32Bytes_wordAt_cons hneed 0)
  | memWrite =>
    have hlen : 5 ≤ p.length := Nat.le_trans (Nat.le_add_right 5 _) (need_write_le hneed)
    simp only [operandsOf, operandBytes, length_data_of_need hneed, BitVec.ofNat_toNat, BitVec.setWidth_eq,
      le32Bytes_wordAt_cons hlen]
    exact List.take_prefix _ p
  | _ => exact List.nil_prefix

/-- A command cut from a payload that fits a frame is well formed. -/
theorem operandsOf_wf {o : Opcode} {p : List Byte} (hneed : need (formatOf o) p ≤ p.length) (hp : p.length ≤ 250) :
    (operandsOf o p).wf = true := by
  cases o with
  | memWrite =>
    refine (wf_memWrite _ _).2 ?_
    have := need_write_le hneed
    rw [length_data_of_need hneed]
    omega
  | _ => rfl

theorem payloadOf_length (frame : List Byte) : (payloadOf frame).length = frame.length - 4 - 2 := by
  simp [payloadOf, windowOf]

/-- Settles O3: the command is cut from a payload that reaches `NEED` (`decodeBody_eq_ok`), so its operands are the
bytes the payload begins with (`operandBytes_operandsOf_prefix`). -/
theorem decodedCommandStandsInFrame : Obligations.DecodedCommandStandsInFrame := by
  intro frame i hlen h
  obtain ⟨hrow, hneed, hops⟩ := decodeBody_eq_ok h
  have hp : (payloadOf frame).length ≤ 250 := by
    rw [payloadOf_length]
    omega
  have hprefix := operandBytes_operandsOf_prefix hneed
  have hwf := operandsOf_wf hneed hp
  rw [hops] at hprefix hwf
  exact ⟨hwf, opcodeOf_eq_some.1 hrow, hprefix⟩

/-- Settles O1, by evaluating the decoder on the twelve vectors. -/
theorem sampleFramesDecode : Obligations.SampleFramesDecode := by
  unfold Obligations.SampleFramesDecode
  and_intros <;> decide +kernel

end Sys2Proof
end

section
/-! PROOFS. Responses (spec/30_encoding.md R95 to R97; spec/40_frame_dispatch_crc.md R141, R142): the Ack header comes
first, and what is transmitted after it is as long as it says. -/

namespace Sys2Proof.Machine

/-! ## Lists that begin with the Ack header (R141) -/

/-- Every handler begins with the Ack header and the reply length of R97. -/
theorem handlerOps_ackHeader (c : Cfg) (i : Instr) :
    ∃ work, handlerOps c i = ackHeader (replyLength c i) ++ work := by
  cases i with
  | enableWriteProtect mask flag =>
    by_cases hflag : flag = 0x01#8 <;>
      simp only [handlerOps, enableWriteProtectOps, flagSet, replyLength, hflag, decide_true, decide_false] <;>
      exact ⟨_, rfl⟩
  | _ => exact ⟨_, rfl⟩

/-- A transmission that is due holds, or is followed by the rest. -/
theorem run_tx_cons (b : Byte) (ops : List Op) (s : State) :
    run (.tx b :: ops) s = { s with step := .tx b :: ops } ∨
      run (.tx b :: ops) s = run ops (primTx b (spend s)) := by
  obtain ⟨hc, -⟩ | ⟨-, -, ha⟩ | ⟨-, -, ha⟩ := advance_cases (.tx b) s
  · cases hc
  · exact .inl (run_cons_of_hold ha)
  · exact .inr (run_cons_of_done ha)

/-- A list that begins with the Ack header holds at its first byte, at its second, or has transmitted both. -/
theorem run_ackHeader (n : Byte) (work : List Op) (s : State) :
    run (ackHeader n ++ work) s = { s with step := ackHeader n ++ work } ∨
    run (ackHeader n ++ work) s = { primTx 0xA5#8 (spend s) with step := .tx n :: work } ∨
    run (ackHeader n ++ work) s = run work (primTx n (spend (primTx 0xA5#8 (spend s)))) := by
  obtain h | h := run_tx_cons 0xA5#8 (.tx n :: work) s
  · exact .inl h
  · exact .inr ((run_tx_cons n work (primTx 0xA5#8 (spend s))).imp h.trans h.trans)

/-- A run only adds to the trace and to the transmitted bytes (R44). -/
theorem grows_run (ops : List Op) (s : State) : Grows s (run ops s) :=
  run_induction (P := Grows s) (fun _ _ h => h) (fun _ h => h) ops s (fun _ a h => h.trans (grows_launchMoves a))
    (fun op _ a h => h.trans (grows_perform op a)) ⟨List.prefix_rfl, List.prefix_rfl⟩

/-- Settles O51: a handler begins with the Ack header (`handlerOps_ackHeader`), which is run as far as the environment
lets it (`run_ackHeader`), and the rest adds its events behind it (`grows_run`). -/
theorem ackHeaderComesFirst : Obligations.AckHeaderComesFirst := by
  intro s t i ht
  obtain ⟨work, hops⟩ := handlerOps_ackHeader s.cfg i
  rw [exec_eq, hops] at ht
  obtain rfl := Host.Outcome.next.inj ht
  rw [startHandler]
  obtain h | h | h := run_ackHeader (replyLength s.cfg i) work { s with ph := .exec, step := [] } <;> rw [h]
  · exact ⟨[], (List.append_nil _).symm, List.nil_prefix⟩
  · exact ⟨[.tx 0xA5], rfl, ⟨[.tx (replyLength s.cfg i)], rfl⟩⟩
  · obtain ⟨-, es, htrace⟩ := grows_run work
      (primTx (replyLength s.cfg i) (spend (primTx 0xA5#8 (spend { s with ph := .exec, step := [] }))))
    refine ⟨[.tx 0xA5, .tx (replyLength s.cfg i)] ++ es, ?_, List.prefix_rfl⟩
    simpa using htrace.symm

/-! ## How many bytes a list transmits (R96, R142) -/

/-- The entries of phase EXEC that transmit a byte. -/
def transmits : Op → Bool
  | .tx _ | .txStatus | .txValue | .txIdLow | .txIdHigh | .txRead => true
  | _ => false

/-- An entry of phase EXEC transmits one byte or none. -/
theorem perform_txq {op : Op} (hfit : fits .exec op = true) (s : State) :
    ∃ bs, (perform op s).txq = s.txq ++ bs ∧ bs.length = [op].countP transmits := by
  cases op with
  | tx _ | txStatus | txValue | txIdLow | txIdHigh | txRead => exact ⟨[_], rfl, rfl⟩
  | txNackIfBad => cases hfit
  | eraseSector _ | waitOptIdle | optSetOptstrt =>
    refine ⟨[], ?_, rfl⟩
    simp only [perform, primWaitOptIdle, primOptSetOptstrt, emit_txq, List.append_nil]
    split <;> rfl
  | _ => exact ⟨[], (List.append_nil _).symm, rfl⟩

/-- A run of phase EXEC that has come to its end has transmitted a byte for each entry that does. -/
theorem run_txq_of_ended {ops : List Op} (hfit : ∀ op ∈ ops, fits .exec op = true) {s : State}
    (hend : (run ops s).step = []) :
    ∃ bs, (run ops s).txq = s.txq ++ bs ∧ bs.length = ops.countP transmits := by
  induction ops generalizing s with
  | nil => exact ⟨[], (List.append_nil _).symm, rfl⟩
  | cons op ops ih =>
    have hdone : ∀ a, a.txq = s.txq → run (op :: ops) s = run ops (perform op a) →
        ∃ bs, (run (op :: ops) s).txq = s.txq ++ bs ∧ bs.length = (op :: ops).countP transmits := by
      intro a ha hrun
      obtain ⟨bs, htxq, hlen⟩ := perform_txq (hfit op List.mem_cons_self) a
      obtain ⟨bs', htxq', hlen'⟩ := ih (fun o ho => hfit o (List.mem_cons_of_mem _ ho)) (hrun ▸ hend)
      refine ⟨bs ++ bs', by rw [hrun, htxq', htxq, ha, List.append_assoc], ?_⟩
      rw [List.length_append, hlen, hlen', ← List.countP_append, List.singleton_append]
    obtain ⟨-, ha⟩ | ⟨-, -, ha⟩ | ⟨-, -, ha⟩ := advance_cases op s
    · exact hdone s rfl (run_cons_of_done ha)
    · rw [run_cons_of_hold ha] at hend
      cases hend
    · exact hdone (spend s) rfl (run_cons_of_done ha)

theorem countP_flashEraseWork (c : Cfg) (sec cnt : Byte) : (flashEraseWork c sec cnt).countP transmits = 0 := by
  unfold flashEraseWork
  split
  · rfl
  split
  · rfl
  · simp [transmits, List.countP_replicate]

theorem countP_memWriteWork (c : Cfg) (addr : Word) (data : List Byte) :
    (memWriteWork c addr data).countP transmits = 0 := by
  unfold memWriteWork
  split <;> simp [transmits, List.countP_eq_zero]

theorem countP_readTurns (addr : Word) (n : Nat) : (readTurns addr n).countP transmits = n := by
  induction n with
  | zero => rfl
  | succ n ih => simp [readTurns, List.countP_cons, transmits, ih]

/-- Behind its Ack header a handler transmits as many bytes as the header says (R96). -/
theorem countP_handlerOps {c : Cfg} (hc : c.valid = true) (i : Instr) :
    (handlerOps c i).countP transmits = 2 + (replyLength c i).toNat := by
  cases i with
  | getHelp => rw [handlerOps, getHelpOps, replyLength, helpList_of_valid hc]; rfl
  | goToAddress addr =>
    simp only [handlerOps, goToAddressOps]
    split <;> rfl
  | flashErase sec cnt =>
    simp only [handlerOps, flashEraseOps, List.countP_append, countP_flashEraseWork]
    rfl
  | memWrite addr data =>
    simp only [handlerOps, memWriteOps, List.countP_append, countP_memWriteWork]
    rfl
  | enableWriteProtect mask flag =>
    by_cases hflag : flag = 0x01#8 <;>
      simp only [handlerOps, enableWriteProtectOps, flagSet, replyLength, hflag, decide_true, decide_false] <;>
      rfl
  | memRead addr dlen =>
    simp only [handlerOps, memReadOps, List.countP_append, countP_readTurns]
    exact Nat.add_right_comm _ _ _
  | _ => rfl

/-! ## What phase EXEC runs from its start (R139, R140, R142) -/

/-- Phase EXEC raises no other kinds than these two (R139, R140). -/
theorem decodeBody_eq_error {frame : List Byte} {k : RaisedKind} (h : decodeBody frame = .error k) :
    k = .unsupportedOpcode ∨ k = .badPayloadLength := by
  unfold decodeBody at h
  split at h
  · exact .inl (Except.error.inj h).symm
  split at h
  · exact .inr (Except.error.inj h).symm
  · cases h

/-- The entries are those of phase EXEC: an Ack header, and then as many transmitted bytes as it says. -/
def AnswersExactly (ops : List Op) : Prop :=
  ∃ (n : Byte) (work : List Op), ops = ackHeader n ++ work ∧ work.countP transmits = n.toNat ∧
    ∀ op ∈ work, fits .exec op = true

theorem handlerOps_answersExactly {c : Cfg} (hc : c.valid = true) (i : Instr) : AnswersExactly (handlerOps c i) := by
  obtain ⟨work, hops⟩ := handlerOps_ackHeader c i
  have hcount := countP_handlerOps hc i
  have hfit := handlerOps_fit c i
  rw [hops] at hcount hfit
  rw [List.countP_append] at hcount
  exact ⟨_, work, hops, Nat.add_left_cancel hcount, fun op hop => hfit op (List.mem_append_right _ hop)⟩

theorem raiseOps_answersExactly (c : Cfg) {k : RaisedKind} (hk : k = .unsupportedOpcode ∨ k = .badPayloadLength) :
    AnswersExactly (raiseOps c k) := by
  have hstatus (st : Byte) : AnswersExactly (ackHeader 1#8 ++ [.tx st, .enterRxLen]) :=
    ⟨1#8, _, rfl, rfl, by simp [fits, phasesOf]⟩
  obtain rfl | rfl := hk
  · exact hstatus c.stUnsupported
  · exact hstatus c.stBadLength

/-- A run that begins with the Ack header and comes to its end has answered with exactly the bytes the header says. -/
theorem run_txq_of_answersExactly {ops : List Op} (hops : AnswersExactly ops) {s : State}
    (hend : (run ops s).step = []) :
    ∃ payload : List Byte, payload.length ≤ 255 ∧
      (run ops s).txq = s.txq ++ 0xA5 :: BitVec.ofNat 8 payload.length :: payload := by
  obtain ⟨n, work, rfl, hcount, hfit⟩ := hops
  obtain h | h | h := run_ackHeader n work s <;> rw [h] at hend ⊢
  · cases hend
  · cases hend
  · obtain ⟨bs, htxq, hlen⟩ := run_txq_of_ended hfit hend
    rw [hcount] at hlen
    refine ⟨bs, hlen ▸ Nat.le_of_lt_succ n.isLt, ?_⟩
    rw [htxq, hlen, BitVec.ofNat_toNat, BitVec.setWidth_eq]
    simp

/-- Settles O50: what phase EXEC runs from its start answers exactly, be it a handler (`handlerOps_answersExactly`) or a
raised kind (`raiseOps_answersExactly`), and a run that leaves nothing to do has come to its end. -/
theorem exactlyOneResponse : Obligations.ExactlyOneResponse := by
  intro s t hc hr hp hs ht hend
  obtain rfl := Host.Outcome.next.inj ((step_of_running hr (.inr hp)).symm.trans ht)
  refine run_txq_of_answersExactly ?_ hend
  cases hd : decodeBody s.frame with
  | ok i => exact dueOps_of_decoded hp hs hd ▸ handlerOps_answersExactly hc i
  | error k => exact dueOps_of_raised hp hs hd ▸ raiseOps_answersExactly s.cfg (decodeBody_eq_error hd)

end Sys2Proof.Machine
end

section
/-! PROOFS. The checksum check of a frame (spec/40_frame_dispatch_crc.md R136, R146): what it compares, and that it sees
the change of any one byte. -/

namespace Sys2Proof

/-- A word read from a sequence fixes each of its four bytes (R15). -/
theorem byteAt_eq_of_wordAt_eq {as bs : List Byte} {n k : Nat} (h : wordAt as n = wordAt bs n) (hn : n ≤ k)
    (hk : k < n + 4) : byteAt as k = byteAt bs k := by
  have hbytes := congrArg le32Bytes h
  simp only [wordAt, le32Bytes_le32, List.cons.injEq, and_true] at hbytes
  obtain ⟨h0, h1, h2, h3⟩ := hbytes
  obtain rfl | rfl | rfl | rfl : k = n ∨ k = n + 1 ∨ k = n + 2 ∨ k = n + 3 := by omega
  · exact h0
  · exact h1
  · exact h2
  · exact h3

theorem byteAt_set_same {bs : List Byte} {k : Nat} (hk : k < bs.length) (b : Byte) : byteAt (bs.set k b) k = b := by
  simp [byteAt, hk]

theorem byteAt_set_other (bs : List Byte) {j k : Nat} (hjk : j ≠ k) (b : Byte) :
    byteAt (bs.set k b) j = byteAt bs j := by
  simp [byteAt, List.getD_eq_getElem?_getD, List.getElem?_set_ne hjk.symm]

/-- A word read from behind the changed byte is as before. -/
theorem wordAt_set_before (bs : List Byte) {k n : Nat} (hk : k < n) (b : Byte) : wordAt (bs.set k b) n = wordAt bs n := by
  simp only [wordAt]
  rw [byteAt_set_other _ (by omega), byteAt_set_other _ (by omega), byteAt_set_other _ (by omega),
    byteAt_set_other _ (by omega)]

theorem windowOf_set (frame : List Byte) (k : Nat) (b : Byte) : windowOf (frame.set k b) = (windowOf frame).set k b := by
  rw [windowOf, List.length_set, List.take_set, windowOf]

theorem hostCrcOf_set (frame : List Byte) (k : Nat) (b : Byte) :
    hostCrcOf (frame.set k b) = wordAt (frame.set k b) (frame.length - 4) := by rw [hostCrcOf, List.length_set]

theorem verifies_iff {c : Cfg} {frame : List Byte} :
    verifies c frame = true ↔ crcOf c (windowOf frame) = hostCrcOf frame := decide_eq_true_iff

/-- A checksum unit that detects the change of one byte (R12) tells a sequence from the same with one byte replaced. -/
theorem crcOf_set_ne {c : Cfg} (hc : c.DetectsOneByte) {bs : List Byte} {k : Nat} (hk : k < bs.length) {b : Byte}
    (hb : byteAt bs k ≠ b) : crcOf c (bs.set k b) ≠ crcOf c bs := by
  have hbyte : byteAt bs k = bs[k] := by simp [byteAt, hk]
  rw [List.set_eq_take_append_cons_drop, if_pos hk]
  conv_rhs => rw [← List.take_append_drop k bs, List.drop_eq_getElem_cons hk]
  exact hc _ _ _ _ (hbyte ▸ hb.symm)

/-- A changed byte of the window changes the recomputed checksum and not the host's; a changed checksum byte the other way
round (R146). -/
theorem verifies_set {c : Cfg} (hc : c.DetectsOneByte) {frame : List Byte} (hv : verifies c frame = true) {k : Nat}
    (hk : k < frame.length) {b : Byte} (hb : byteAt frame k ≠ b) : verifies c (frame.set k b) = false := by
  rw [verifies_iff] at hv
  rw [Bool.eq_false_iff, ne_eq, verifies_iff, windowOf_set, hostCrcOf_set]
  intro hv'
  by_cases hwin : k < frame.length - 4
  · have hlen : (windowOf frame).length = frame.length - 4 := by simp [windowOf]
    have hbyte : byteAt (windowOf frame) k = byteAt frame k := byteAt_take hwin
    refine crcOf_set_ne hc (hlen.symm ▸ hwin) (hbyte.symm ▸ hb) (?_ : _ = crcOf c (windowOf frame))
    rw [hv', hv, hostCrcOf, wordAt_set_before frame hwin]
  · have hsame : (windowOf frame).set k b = windowOf frame :=
      List.set_eq_of_length_le (by simp [windowOf]; omega)
    rw [hsame, hv, hostCrcOf] at hv'
    exact hb ((byteAt_eq_of_wordAt_eq hv' (by omega) (by omega)).trans (byteAt_set_same hk b))

/-- Settles O6: the comparison is the definition's, and one changed byte changes exactly one of its two sides
(`verifies_set`). -/
theorem corruptedByteIsRejected : Obligations.CorruptedByteIsRejected := by
  intro c frame hlen
  refine ⟨?_, fun hc hv k b hk hb => verifies_set (hc.elim (referenceCrcDetectsOneByte c) id) hv hk hb⟩
  have h1 : frame.length - 4 + 1 = frame.length - 3 := by omega
  have h2 : frame.length - 4 + 2 = frame.length - 2 := by omega
  have h3 : frame.length - 4 + 3 = frame.length - 1 := by omega
  rw [verifies_iff, hostCrcOf, wordAt, h1, h2, h3, windowOf]

end Sys2Proof
end

section
/-! PROOFS. Reception (spec/40_frame_dispatch_crc.md R131 to R133): the length byte, the bytes of the body, and so a whole
frame, one step each. -/

namespace Sys2Proof.Machine

/-! ## Several steps -/

@[simp] theorem steps_zero (s : State) : steps 0 s = .next s := rfl

/-- A run whose first step answers a next state goes on from there. -/
theorem coreRun_succ {M : Host.Core} {s t : M.State} (h : M.step s = .next t) (k : Nat) :
    M.run (k + 1) s = M.run k t := by simp [Host.Core.run, h]

theorem steps_succ {s t : State} (h : step s = .next t) (k : Nat) : steps (k + 1) s = steps k t :=
  coreRun_succ (M := core) h k

/-- Some steps, and then some more. -/
theorem steps_add {s t : State} {k : Nat} (h : steps k s = .next t) (j : Nat) : steps (k + j) s = steps j t := by
  induction k generalizing s with
  | zero =>
    obtain rfl := Host.Outcome.next.inj h
    rw [Nat.zero_add]
  | succ k ih =>
    obtain ⟨u, hu⟩ := step_next s
    rw [steps_succ hu] at h
    rw [Nat.succ_add, steps_succ hu, ih h]

/-! ## One byte -/

/-- Where the environment sets no limit, a byte that has been supplied is taken. -/
theorem receive_free (use : Byte → State → State) {s : State} {b : Byte} {rest : List Byte} (hg : s.env.grant = none)
    (hq : s.rxq = b :: rest) : receive use s = use b { s with rxq := rest } := by
  simp [receive, hq, stalled_of_none hg, spend_of_none hg]

theorem step_takesLength {s : State} {b : Byte} {rest : List Byte} (hr : s.rstN = true) (hp : s.ph = .rxLen)
    (hs : s.step = []) (hg : s.env.grant = none) (hq : s.rxq = b :: rest) :
    step s = .next (receiveLength b { s with rxq := rest }) := by rw [step_of_rxLen hr hp hs, receive_free _ hg hq]

/-- Settles O7: RX_LEN holds without a byte (`receive_held`) and takes any byte (`step_takesLength`). -/
theorem lengthByteIsTaken : Obligations.LengthByteIsTaken := fun s hr hp hs =>
  ⟨fun hq => by rw [step_of_rxLen hr hp hs, receive_held _ (.inl hq)],
    fun _ _ hg hq => step_takesLength hr hp hs hg hq⟩

theorem step_takesBody {s : State} {b : Byte} {rest : List Byte} (hr : s.rstN = true) (hp : s.ph = .rxBody)
    (hi : s.idx.toNat < s.frameSize) (hg : s.env.grant = none) (hq : s.rxq = b :: rest) :
    step s = .next (receiveBody b { s with rxq := rest }) := by
  rw [step_of_rxBody hr hp, receiveBodyStep, if_pos hi, receive_free _ hg hq]

/-! ## The body, and the whole frame -/

/-- A frame fits the buffer (R21, R22). -/
theorem frameSize_le (s : State) : s.frameSize ≤ 256 := s.len.isLt

/-- `IDX` has 9 bits, room for every frame size (R23). -/
theorem idx_succ_toNat {s : State} (hi : s.idx.toNat < s.frameSize) : (s.idx + 1#9).toNat = s.idx.toNat + 1 := by
  have hsize := frameSize_le s
  simp only [BitVec.toNat_add, BitVec.toNat_ofNat]
  omega

theorem idx_eq_ofNat {i : BitVec 9} {n : Nat} (h : i.toNat = n) : i = BitVec.ofNat 9 n := by
  rw [← h, BitVec.ofNat_toNat, BitVec.setWidth_eq]

/-- The state that has stored the missing bytes of the frame, with `rest` still to be received. -/
def bodyTaken (s : State) (bs rest : List Byte) : State :=
  { s with
    fb := storeBytes s.fb s.idx.toNat bs
    idx := BitVec.ofNat 9 s.frameSize
    ph := .verify
    rxq := rest
    trace := s.trace ++ bs.map .rx }

/-- The missing bytes of a frame are taken one step each, the last of them leading to VERIFY (R132). -/
theorem steps_takeBody {bs rest : List Byte} (hbs : bs ≠ []) {s : State} (hr : s.rstN = true) (hp : s.ph = .rxBody)
    (hg : s.env.grant = none) (hsize : s.idx.toNat + bs.length = s.frameSize) (hq : s.rxq = bs ++ rest) :
    steps bs.length s = .next (bodyTaken s bs rest) := by
  induction bs generalizing s with
  | nil => exact absurd rfl hbs
  | cons b bs ih =>
    rw [List.length_cons] at hsize ⊢
    have hi : s.idx.toNat < s.frameSize := by omega
    have hidx : (s.idx + 1#9).toNat = s.idx.toNat + 1 := idx_succ_toNat hi
    have hfirst : step s = .next (receiveBody b { s with rxq := bs ++ rest }) := step_takesBody hr hp hi hg hq
    rw [steps_succ hfirst]
    cases bs with
    | nil =>
      have hlast : ¬ s.idx.toNat + 1 < s.len.toNat + 1 := hsize.not_lt
      have hfull : s.idx + 1#9 = BitVec.ofNat 9 (s.len.toNat + 1) := idx_eq_ofNat (hidx.trans hsize)
      simp [bodyTaken, receiveBody, emit, storeBytes, State.frameSize, hlast, hfull]
    | cons b' bs =>
      have hmore : s.idx.toNat + 1 < s.frameSize := by rw [List.length_cons] at hsize; omega
      rw [ih (List.cons_ne_nil _ _) (s := receiveBody b { s with rxq := b' :: bs ++ rest }) hr (if_pos hmore) hg
        (by show (s.idx + 1#9).toNat + _ = s.frameSize; omega) rfl]
      simp [bodyTaken, receiveBody, emit, storeBytes, hidx, State.frameSize]

/-- Settles O8: RX_BODY holds without a byte (`receiveBodyStep_held`), and the missing bytes are taken by induction on
them (`steps_takeBody`). -/
theorem frameBodyIsTaken : Obligations.FrameBodyIsTaken := fun s hr hp =>
  ⟨fun hi hq => by rw [step_of_rxBody hr hp, receiveBodyStep_held hi (.inl hq)],
    fun _ _ hg hbs hsize hq => steps_takeBody hbs hr hp hg hsize hq⟩

/-- The state that has received the frame `len :: body` and stands before its verification. -/
def frameTaken (s : State) (len : Byte) (body rest : List Byte) : State :=
  { s with
    fb := storeBytes s.fb 0 (len :: body)
    len := len
    idx := BitVec.ofNat 9 (len.toNat + 1)
    ph := .verify
    rxq := rest
    trace := s.trace ++ (len :: body).map .rx }

/-- A frame is received in as many steps as it has bytes (R131, R132). -/
theorem steps_takeFrame {s : State} {len : Byte} {body rest : List Byte} (hr : s.rstN = true) (hp : s.ph = .rxLen)
    (hs : s.step = []) (hg : s.env.grant = none) (hlen : len.toNat = body.length) (hq : s.rxq = len :: (body ++ rest)) :
    steps (len :: body).length s = .next (frameTaken s len body rest) := by
  have hfirst : step s = .next (receiveLength len { s with rxq := body ++ rest }) := step_takesLength hr hp hs hg hq
  rw [List.length_cons, steps_succ hfirst]
  cases body with
  | nil =>
    obtain rfl : len = 0#8 := BitVec.eq_of_toNat_eq hlen
    rfl
  | cons b bs =>
    have hpos : len ≠ 0#8 := by rintro rfl; cases hlen
    rw [steps_takeBody (List.cons_ne_nil _ _) (s := receiveLength len { s with rxq := b :: bs ++ rest }) hr
      (if_neg hpos) hg (by show 1 + _ = len.toNat + 1; omega) rfl]
    simp [bodyTaken, frameTaken, receiveLength, emit, storeBytes, State.frameSize]

end Sys2Proof.Machine
end

section
/-! PROOFS. Verification (spec/40_frame_dispatch_crc.md R134 to R138): the framing check, and the verdict as the checksum
check of the frame in `FB`. -/

namespace Sys2Proof.Machine

/-! ## The frame in `FB` (R20 to R22) -/

theorem frame_length (s : State) : s.frame.length = s.frameSize := by
  have hsize := frameSize_le s
  simp [State.frame, hsize]

theorem byteAt_frame {s : State} {k : Nat} (hk : k < s.frameSize) : byteAt s.frame k = s.fbAt k := byteAt_take hk

/-- The framing check looks at `FB[0]`, which is `LEN` (R94, R134). -/
theorem wellFramed_frame_iff {s : State} (hfirst : s.fbAt 0 = s.len) :
    wellFramed s.frame = true ↔ 5 ≤ s.len.toNat := by
  have hbyte : byteAt s.frame 0 = s.len := (byteAt_frame (Nat.succ_pos _)).trans hfirst
  rw [wellFramed, hbyte, decide_eq_true_iff, BitVec.lt_def]
  exact Iff.rfl

theorem windowOf_frame {s : State} (hlen : 5 ≤ s.len.toNat) :
    windowOf s.frame = s.fb.toList.take (s.len.toNat - 3) := by
  rw [windowOf, frame_length, State.frame, List.take_take, State.frameSize]
  congr 1
  omega

theorem hostCrcOf_frame {s : State} (hlen : 5 ≤ s.len.toNat) :
    hostCrcOf s.frame = le32 (s.fbAt (s.len.toNat - 3)) (s.fbAt (s.len.toNat - 2)) (s.fbAt (s.len.toNat - 1))
      (s.fbAt s.len.toNat) := by
  have hsize : s.frameSize = s.len.toNat + 1 := rfl
  have h0 : s.frameSize - 4 = s.len.toNat - 3 := by omega
  have h1 : s.len.toNat - 3 + 1 = s.len.toNat - 2 := by omega
  have h2 : s.len.toNat - 3 + 2 = s.len.toNat - 1 := by omega
  have h3 : s.len.toNat - 3 + 3 = s.len.toNat := by omega
  rw [hostCrcOf, frame_length, h0, wordAt, h1, h2, h3, byteAt_frame (by omega), byteAt_frame (by omega),
    byteAt_frame (by omega), byteAt_frame (by omega)]

/-! ## Raised kinds (R134, R138, R250) -/

/-- VERIFY and EXEC, from their start. -/
theorem step_of_start {s : State} (hr : s.rstN = true) (hp : s.ph = .verify ∨ s.ph = .exec) (hs : s.step = []) :
    step s = .next (run (dueOps s) s) := by rw [step_of_running hr hp, setStep_self hs]

/-- Raising a kind transmits its response and changes nothing else (R18, R259). -/
theorem run_raiseOps {s : State} (hs : s.step = []) (hg : s.env.grant = none) (k : RaisedKind) :
    run (raiseOps s.cfg k) s = answered s (raiseResponse s.cfg k) (txs (raiseResponse s.cfg k)) := by
  rw [run_free _ _ hg (by simp [raiseOps]), raiseOps, performAll_append, performAll_txs]
  simp [perform, answered, hs]

/-- Settles O9: the framing check fails (`wellFramed_frame_iff`), so VERIFY only raises the kind (`run_raiseOps`). -/
theorem malformedFrameGetsNack : Obligations.MalformedFrameGetsNack := by
  intro s hr hp hs hg hfirst hlen
  have hframe : ¬ wellFramed s.frame = true := fun h => by
    have := (wellFramed_frame_iff hfirst).1 h
    omega
  rw [step_of_start hr (.inl hp) hs, dueOps_of_verify hp hs, verifyOps, if_neg hframe, run_raiseOps hs hg]
  rfl

/-! ## The checksum check (R136, R138) -/

/-- Feeding a sequence of bytes. -/
theorem performAll_crcFeeds (bs : List Byte) (s : State) :
    performAll (bs.map .crcFeed) s =
      { s with crcAcc := bs.foldl (crcFeed s.cfg.crcUnit) s.crcAcc, trace := s.trace ++ bs.map .crcFeed } := by
  induction bs generalizing s with
  | nil => simp
  | cons b bs ih =>
    rw [List.map_cons, performAll_cons, ih]
    simp [perform, primCrcFeed, emit]

/-- The state that has recomputed the checksum of its frame and has given the verdict `ok`. -/
def judged (s : State) (ok : Bool) : State :=
  { s with
    v := crcOf s.cfg (windowOf s.frame)
    crcOk := ok
    trace := s.trace ++ (windowOf s.frame).map .crcFeed ++ [.crcRead (crcOf s.cfg (windowOf s.frame)), .crcReset] }

/-- From a clean accumulator (R137) the verdict is the checksum check of the frame, and the accumulator is clean again. -/
theorem performAll_judge {s : State} (hclean : crcClean s) :
    performAll ((windowOf s.frame).map .crcFeed ++ [.crcValue, .crcReset, .judgeCrc]) s =
      judged s (verifies s.cfg s.frame) := by
  have hacc : (windowOf s.frame).foldl (crcFeed s.cfg.crcUnit) s.crcAcc = crcOf s.cfg (windowOf s.frame) := by
    rw [hclean, crcOf]
  rw [performAll_append, performAll_crcFeeds, hacc, judged, hclean]
  simp only [performAll_cons, performAll_nil, perform, primCrcValue, primCrcReset, emit, List.append_assoc]
  rfl

/-- A well-framed frame is judged, and the verdict says what VERIFY does next. -/
theorem step_of_wellFramed {s : State} (hr : s.rstN = true) (hp : s.ph = .verify) (hs : s.step = [])
    (hg : s.env.grant = none) (hclean : crcClean s) (hframe : wellFramed s.frame = true) :
    step s = .next (performAll [.txNackIfBad, .leaveVerify] (judged s (verifies s.cfg s.frame))) := by
  have hops : verifyOps s =
      ((windowOf s.frame).map .crcFeed ++ [.crcValue, .crcReset, .judgeCrc]) ++ [.txNackIfBad, .leaveVerify] := by
    simp [verifyOps, hframe]
  rw [step_of_start hr (.inl hp) hs, dueOps_of_verify hp hs, hops, run_free _ _ hg (by simp), performAll_append,
    performAll_judge hclean]

theorem step_of_verified {s : State} (hr : s.rstN = true) (hp : s.ph = .verify) (hs : s.step = [])
    (hg : s.env.grant = none) (hclean : crcClean s) (hframe : wellFramed s.frame = true)
    (hv : verifies s.cfg s.frame = true) : step s = .next { judged s true with ph := .exec } := by
  rw [step_of_wellFramed hr hp hs hg hclean hframe, hv]
  rfl

theorem step_of_mismatch {s : State} (hr : s.rstN = true) (hp : s.ph = .verify) (hs : s.step = [])
    (hg : s.env.grant = none) (hclean : crcClean s) (hframe : wellFramed s.frame = true)
    (hv : verifies s.cfg s.frame = false) :
    step s = .next (answered (judged s false) [0x7F#8] [.tx 0x7F#8]) := by
  rw [step_of_wellFramed hr hp hs hg hclean hframe, hv]
  simp [perform, primTx, emit, answered, judged, hs]

/-- Settles O10: the verdict is the checksum check of the frame (`step_of_verified`, `step_of_mismatch`), whose window and
host checksum stand in `FB` (`windowOf_frame`, `hostCrcOf_frame`). -/
theorem verdictIsTheChecksum : Obligations.VerdictIsTheChecksum := by
  intro s hr hp hs hg hfirst hlen hclean
  have hframe : wellFramed s.frame = true := (wellFramed_frame_iff hfirst).2 hlen
  rw [← windowOf_frame hlen, ← hostCrcOf_frame hlen]
  refine ⟨fun hv => ?_, fun hv => ?_⟩
  · exact step_of_verified hr hp hs hg hclean hframe (verifies_iff.2 hv)
  · exact step_of_mismatch hr hp hs hg hclean hframe (Bool.eq_false_iff.2 fun h => hv (verifies_iff.1 h))

end Sys2Proof.Machine
end

section
/-! PROOFS. Dispatch (spec/40_frame_dispatch_crc.md R139, R140), and the whole way of a command from the receive stream to
its handler (R130 to R140). -/

namespace Sys2Proof.Machine

/-! ## Phase EXEC (R139, R140) -/

/-- Settles O11: the entries that are due are the handler's (`dueOps_of_decoded`), which is what `exec` runs. -/
theorem stepRunsDecodedCommand : Obligations.StepRunsDecodedCommand := by
  intro s i hr hp hs hd
  rw [step_of_running hr (.inr hp), dueOps_of_decoded hp hs hd, exec_eq, startHandler, ← hp]

/-- The twelve assigned values are those of the rows. -/
theorem opcodeValue_mem (o : Opcode) : opcodeValue o ∈ Config.opcodeValues := by cases o <;> decide

theorem opcodeOf_eq_none {b : Byte} (hb : b ∉ Config.opcodeValues) : opcodeOf b = none :=
  Option.eq_none_iff_forall_not_mem.2 fun o ho => hb (opcodeOf_eq_some.1 ho ▸ opcodeValue_mem o)

theorem decodeBody_of_unassigned {frame : List Byte} (h : opcodeOf (byteAt frame 1) = none) :
    decodeBody frame = .error .unsupportedOpcode := by simp [decodeBody, h]

/-- Settles O13: no row has the opcode (`opcodeOf_eq_none`), so EXEC only raises the kind (`run_raiseOps`). -/
theorem unassignedOpcodeIsReported : Obligations.UnassignedOpcodeIsReported := by
  intro s hr hp hs hg hlen hopc
  have hbyte : byteAt s.frame 1 = s.latchOpc := byteAt_frame (Nat.lt_of_lt_of_le (by decide) (Nat.le_succ_of_le hlen))
  have hbody : decodeBody s.frame = .error .unsupportedOpcode :=
    decodeBody_of_unassigned (hbyte.symm ▸ opcodeOf_eq_none hopc)
  rw [step_of_start hr (.inr hp) hs, dueOps_of_raised hp hs hbody, run_raiseOps hs hg]
  rfl

/-! ## From the receive stream to the handler (R130 to R140) -/

/-- Bytes stored from index `k` on stand there, behind what stood below `k`. -/
theorem take_storeBytes (bs : List Byte) (fb : Vector Byte 256) (k : Nat) (hk : k + bs.length ≤ 256) :
    (storeBytes fb k bs).toList.take (k + bs.length) = fb.toList.take k ++ bs := by
  induction bs generalizing fb k with
  | nil => simp [storeBytes]
  | cons b bs ih =>
    rw [List.length_cons] at hk ⊢
    have hfirst : (storeByte fb k b).toList.take (k + 1) = fb.toList.take k ++ [b] := by
      have hlt : k < (fb.toList.set k b).length := by simp; omega
      rw [storeByte, Vector.toList_setIfInBounds, List.take_succ_eq_append_getElem hlt, List.getElem_set_self,
        List.take_set_of_le (Nat.le_refl k)]
    rw [storeBytes, Nat.add_comm bs.length, ← Nat.add_assoc, ih _ _ (by omega), hfirst, List.append_assoc,
      List.singleton_append]

/-- A frame that has been received is the current frame (R21, R22). -/
theorem frame_frameTaken (s : State) {len : Byte} {body : List Byte} (hlen : len.toNat = body.length)
    (rest : List Byte) : (frameTaken s len body rest).frame = len :: body := by
  have hsize : (frameTaken s len body rest).frameSize = 0 + (len :: body).length := by
    rw [Nat.zero_add, List.length_cons, ← hlen]
    rfl
  have hfits : 0 + (len :: body).length ≤ 256 := hsize ▸ frameSize_le _
  rw [State.frame, hsize]
  exact take_storeBytes (len :: body) s.fb 0 hfits

/-- A frame is a length byte and as many bytes as that says (R91, R114). -/
theorem encodeWith_eq_cons (c : Cfg) (i : Instr) {excess : List Byte}
    (hfits : (operandBytes i ++ excess).length ≤ 250) :
    ∃ len body, encodeWith c i excess = len :: body ∧ len.toNat = body.length := by
  refine ⟨_, opcodeByte i :: ((operandBytes i ++ excess) ++ le32Bytes _), rfl, ?_⟩
  rw [toNat_lengthByte hfits, List.length_cons, @List.length_append _ _ (le32Bytes _), le32Bytes_length]
  omega

/-- What the decoder answers for a frame is what phase EXEC decodes from its body (R140). -/
theorem decodeBody_encodeWith (c : Cfg) {i : Instr} {excess : List Byte} (hwf : i.wf = true)
    (hfits : (operandBytes i ++ excess).length ≤ 250) : decodeBody (encodeWith c i excess) = .ok i := by
  have h := decodeEncodeRoundTrip c i excess [] hwf hfits
  rw [encodeWith, decode_frameOf c _ hfits, ← encodeWith] at h
  simpa using h

/-- Settles O12: the frame is received (`steps_takeFrame`) and is then the one in `FB` (`frame_frameTaken`), so that it is
verified (`step_of_verified`) and decoded to the command (`decodeBody_encodeWith`). -/
theorem sentCommandIsRun : Obligations.SentCommandIsRun := by
  intro s i excess rest hwf hfits hr hp hs hg hclean hq
  obtain ⟨len, body, hcons, hlen⟩ := encodeWith_eq_cons s.cfg i hfits
  have hreceived : steps (encodeWith s.cfg i excess).length s = .next (frameTaken s len body rest) := by
    rw [hcons] at hq ⊢
    exact steps_takeFrame hr hp hs hg hlen hq
  have hframe : (frameTaken s len body rest).frame = encodeWith s.cfg i excess :=
    hcons ▸ frame_frameTaken s hlen rest
  have hverified : step (frameTaken s len body rest) =
      .next { judged (frameTaken s len body rest) true with ph := .exec } :=
    step_of_verified hr rfl hs hg hclean (hframe ▸ wellFramed_frameOf s.cfg _ hfits)
      (hframe ▸ verifies_frameOf s.cfg _ _)
  refine ⟨{ judged (frameTaken s len body rest) true with ph := .exec }, ?_, rfl, ?_, rfl, hframe⟩
  · rw [steps_add hreceived, steps_succ hverified, steps_zero]
  · exact stepRunsDecodedCommand _ i hr rfl hs (hframe ▸ decodeBody_encodeWith s.cfg hwf hfits)

end Sys2Proof.Machine
end

section
/-! PROOFS. Orderly states (spec/40_frame_dispatch_crc.md R137; spec/60_exceptions.md R259): that every step, reset
included, keeps them, and what they say when nothing is left to do. -/

namespace Sys2Proof.Machine

/-- A reset leaves the block at rest, with `CrcReset()` alone to do (R45, R281, R282). -/
theorem applyReset_orderly {s : State} (hwf : s.mem.wf = true) : Orderly (applyReset s) := by
  have hrest : atStage .rest (applyReset s) := ⟨rfl, rfl, rfl, rfl, rfl, rfl⟩
  have hsettles : Stage.rest.settles (applyReset s).step = true := by
    show Stage.rest.settles [.crcReset] = true
    decide
  exact ⟨.rest, wf_forgetAll _ _ hwf, rfl, hrest, hsettles⟩

/-- Settles O44: a reset leads to rest from anywhere (`applyReset_orderly`), and every other step keeps stage and devices
together (`step_keeps_orderlyAt`). -/
theorem stepKeepsOrderly : Obligations.StepKeepsOrderly := by
  intro s t ho ht
  obtain ⟨st, ho⟩ := ho
  cases hr : s.rstN with
  | false =>
    obtain rfl := Host.Outcome.next.inj ((step_of_reset hr).symm.trans ht)
    obtain ⟨hwf, -⟩ := ho
    exact applyReset_orderly hwf
  | true =>
    obtain ⟨st', ho', -⟩ := step_keeps_orderlyAt hr ho ht
    exact ⟨st', ho'⟩

/-- Settles O46: with nothing left to do the stage is one of the two at rest (`settles_nil`). -/
theorem idleIsLocked : Obligations.IdleIsLocked := by
  intro s ho hs
  obtain ⟨st, -, -, hat, hset⟩ := ho
  rw [hs] at hset
  have hrest : s.flLocked = true ∧ crcClean s ∧ optAtRest s := by
    obtain rfl | rfl := settles_nil hset <;> exact hat
  obtain ⟨hflash, hclean, hoptlock, hoptstrt, hbusy, hnwrp⟩ := hrest
  exact ⟨hclean, hflash, hoptlock, hoptstrt, hbusy, hnwrp⟩

end Sys2Proof.Machine
end

section
/-! PROOFS. The address classifier as two ranges over the integers (spec/41_address_classifier.md R160, R161). -/

namespace Sys2Proof.Machine

/-! ## The two ranges (R68) -/

theorem inProgram_iff (c : Cfg) (a : Word) :
    inProgram c a = true ↔ c.flashBase.toNat ≤ a.toNat ∧ a.toNat ≤ c.flashEnd.toNat := by
  simp [inProgram, BitVec.le_def]

/-- A sum of two 32-bit words formed in 33 bits does not wrap. -/
theorem setWidth_33_lt_add_iff (a x y : Word) :
    a.setWidth 33 < x.setWidth 33 + y.setWidth 33 ↔ a.toNat < x.toNat + y.toNat := by
  bv_omega

/-- No hypothesis on the configuration: the upper bound does not wrap even where it leaves 32 bits (R160). -/
theorem inVolatile_iff (c : Cfg) (a : Word) :
    inVolatile c a = true ↔ c.sramBase.toNat ≤ a.toNat ∧ a.toNat < c.sramBase.toNat + 0x20000 := by
  have hsize : Config.sramSize.toNat = 0x20000 := rfl
  rw [inVolatile, Bool.and_eq_true, decide_eq_true_eq, decide_eq_true_eq, BitVec.le_def, setWidth_33_lt_add_iff, hsize]

/-- A valid configuration keeps the two regions apart (R69). -/
theorem regionsApart_of_valid {c : Cfg} (h : c.valid = true) :
    c.flashEnd.toNat < c.sramBase.toNat ∨ c.sramBase.toNat + 0x20000 ≤ c.flashBase.toNat := by
  simp only [Cfg.valid, Bool.and_eq_true, Bool.or_eq_true, decide_eq_true_eq, and_assoc] at h
  obtain ⟨-, -, hapart, -⟩ := h
  exact hapart

theorem not_inProgram_of_inVolatile {c : Cfg} {a : Word} (hc : c.valid = true) (hv : inVolatile c a = true) :
    ¬ inProgram c a = true := by
  intro hp
  obtain ⟨hbase, hend⟩ := (inProgram_iff c a).1 hp
  obtain ⟨hlow, hhigh⟩ := (inVolatile_iff c a).1 hv
  obtain h | h := regionsApart_of_valid hc <;> omega

/-! ## The three classes (R160) -/

theorem classify_eq_programMemory_iff (c : Cfg) (a : Word) :
    classify c a = .programMemory ↔ inProgram c a = true := by
  unfold classify
  split
  case isTrue hp => simp [hp]
  case isFalse hp => split <;> simp [hp]

/-- The program range is tested first; in a valid configuration nothing is lost by it. -/
theorem classify_eq_volatileMemory_iff {c : Cfg} (hc : c.valid = true) (a : Word) :
    classify c a = .volatileMemory ↔ inVolatile c a = true := by
  unfold classify
  split
  case isTrue hp =>
    have hv : ¬ inVolatile c a = true := fun hv => not_inProgram_of_inVolatile hc hv hp
    simp [hv]
  case isFalse => split <;> simp [*]

theorem classify_eq_invalid_iff (c : Cfg) (a : Word) :
    classify c a = .invalid ↔ ¬ inProgram c a = true ∧ ¬ inVolatile c a = true := by
  unfold classify
  split
  case isTrue hp => simp [hp]
  case isFalse hp => split <;> simp [*]

/-- Settles O20: each class is its test (`classify_eq_programMemory_iff` and the two after it), and each test is its range
over the integers (`inProgram_iff`, `inVolatile_iff`). Only the volatile class needs the regions to be disjoint. -/
theorem classifierIsTheTwoRanges : Obligations.ClassifierIsTheTwoRanges := by
  intro c a hc
  rw [← inProgram_iff, ← inVolatile_iff]
  exact ⟨classify_eq_programMemory_iff c a, classify_eq_volatileMemory_iff hc a, classify_eq_invalid_iff c a⟩

end Sys2Proof.Machine
end

section
/-! PROOFS. FlashErase (spec/42_flash_erase.md): the range check and the clamp over the integers, and the command out of
range, as a mass erase, and over a sector range to its end or to its first failure (R171 to R176). -/

namespace Sys2Proof.Machine

/-! ## The range check and the clamp (R171, R174) -/

theorem maxSectors_bounds {c : Cfg} (hc : c.valid = true) : 1 ≤ c.maxSectors.toNat ∧ c.maxSectors.toNat ≤ 8 := by
  simp only [Cfg.valid, Bool.and_eq_true, decide_eq_true_eq, and_assoc] at hc
  obtain ⟨-, -, -, hlow, hhigh, -⟩ := hc
  exact ⟨hlow, hhigh⟩

theorem stHwFail_ne_stOk {c : Cfg} (hc : c.valid = true) : c.stHwFail ≠ Config.stOk := by
  simp only [Cfg.valid, Bool.and_eq_true, bne_iff_ne, and_assoc] at hc
  obtain ⟨-, -, -, -, -, -, -, -, -, hfail, -⟩ := hc
  exact hfail

/-- The check subtracts one from `MAX_SECTORS`, which R9 keeps from wrapping. -/
theorem eraseOutOfRange_iff {c : Cfg} (hc : c.valid = true) (sec cnt : Byte) :
    eraseOutOfRange c sec cnt = true ↔
      cnt ≠ massSentinel ∧ (c.maxSectors.toNat < cnt.toNat ∨ c.maxSectors.toNat ≤ sec.toNat) := by
  obtain ⟨hlow, -⟩ := maxSectors_bounds hc
  have hsec : c.maxSectors - 1#8 < sec ↔ c.maxSectors.toNat ≤ sec.toNat := by bv_omega
  rw [eraseOutOfRange, Bool.and_eq_true, bne_iff_ne, Bool.or_eq_true, decide_eq_true_eq, decide_eq_true_eq, hsec,
    BitVec.lt_def]

theorem clampedCount_toNat {c : Cfg} {sec : Byte} (hsec : sec.toNat ≤ c.maxSectors.toNat) (cnt : Byte) :
    (clampedCount c sec cnt).toNat = min cnt.toNat (c.maxSectors.toNat - sec.toNat) := by
  have hsub : (c.maxSectors - sec).toNat = c.maxSectors.toNat - sec.toNat := BitVec.toNat_sub_of_le hsec
  have hle : cnt ≤ c.maxSectors - sec ↔ cnt.toNat ≤ c.maxSectors.toNat - sec.toNat := by rw [BitVec.le_def, hsub]
  simp only [clampedCount, hle]
  split <;> omega

/-- A request in range with a count that is no sentinel (R171, R173). -/
theorem inRange_of_bounds {c : Cfg} (hc : c.valid = true) {sec cnt : Byte} (hcnt : cnt.toNat ≤ c.maxSectors.toNat)
    (hsec : sec.toNat < c.maxSectors.toNat) : eraseOutOfRange c sec cnt = false ∧ cnt ≠ massSentinel := by
  obtain ⟨-, hhigh⟩ := maxSectors_bounds hc
  refine ⟨Bool.eq_false_iff.2 fun h => ?_, fun h => ?_⟩
  · obtain ⟨-, h⟩ := (eraseOutOfRange_iff hc sec cnt).1 h
    omega
  · have hff : massSentinel.toNat = 255 := rfl
    rw [h] at hcnt
    omega

/-! ## The list of each case (R170) -/

theorem flashEraseOps_of_outOfRange {c : Cfg} {sec cnt : Byte} (h : eraseOutOfRange c sec cnt = true) :
    flashEraseOps c sec cnt = ackHeader 1#8 ++ [.setStatus c.stOutOfRange, .txStatus, .enterRxLen] := by
  simp [flashEraseOps, flashEraseWork, h]

theorem flashEraseOps_massSentinel (c : Cfg) (sec : Byte) :
    flashEraseOps c sec massSentinel =
      ackHeader 1#8 ++ [.flashUnlock, .massErase, .flashLock, .massStatus, .txStatus, .enterRxLen] := by
  simp [flashEraseOps, flashEraseWork, eraseOutOfRange]

theorem flashEraseOps_of_inRange {c : Cfg} {sec cnt : Byte} (h : eraseOutOfRange c sec cnt = false)
    (hcnt : cnt ≠ massSentinel) :
    flashEraseOps c sec cnt =
      ackHeader 1#8 ++ .setNsec (clampedCount c sec cnt) ::
        ([.flashUnlock, .setStatus Config.stOk, .clearI] ++
          List.replicate (clampedCount c sec cnt).toNat (.eraseSector sec) ++ [.flashLock, .txStatus, .enterRxLen]) := by
  simp [flashEraseOps, flashEraseWork, h, hcnt]

/-! ## Out of range, and mass erase (R171, R173) -/

/-- Settles O23: out of range the handler is the Ack header and the status byte (`flashEraseOps_of_outOfRange`). -/
theorem eraseOutOfRangeTouchesNothing : Obligations.EraseOutOfRangeTouchesNothing := by
  intro s sec cnt hc hg hcnt hrange
  have hout : eraseOutOfRange s.cfg sec cnt = true := (eraseOutOfRange_iff hc sec cnt).2 ⟨hcnt, hrange⟩
  rw [exec_eq, handlerOps, flashEraseOps_of_outOfRange hout, startHandler_free _ _ hg (by simp [ackHeader])]
  simp [ackHeader, perform, primTx, emit, answered, txs]

/-- Settles O24: with the sentinel the handler is the same whatever the start sector (`flashEraseOps_massSentinel`), and
each of its entries completes. -/
theorem massEraseIsOnePrimitive : Obligations.MassEraseIsOnePrimitive := by
  intro s sec hg r st
  have hops : flashEraseOps s.cfg sec 0xFF = _ := flashEraseOps_massSentinel s.cfg sec
  have hst : resultStatus s.cfg r = st := by cases hr : r <;> simp [st, hr, resultStatus, Config.stOk]
  rw [exec_eq, handlerOps, hops, startHandler_free _ _ hg (by simp [ackHeader]), ← hst]
  simp [ackHeader, perform, primTx, primFlashUnlock, primMassErase, primFlashLock, takeFl, eraseEffect, emit, answered,
    r]

/-! ## A sector range (R170, R174, R175) -/

theorem eraseGoesOn_iff (s : State) : eraseGoesOn s = true ↔ s.i.toNat < s.nsec.toNat ∧ s.status = Config.stOk := by
  have hwidth : (s.nsec.setWidth 9).toNat = s.nsec.toNat := BitVec.toNat_setWidth_of_le (by decide)
  rw [eraseGoesOn, Bool.and_eq_true, decide_eq_true_eq, decide_eq_true_eq, BitVec.lt_def, hwidth]

/-- Once its condition has become false the loop does nothing more. -/
theorem performAll_eraseSector_ended (sec : Byte) (n : Nat) {s : State} (h : eraseGoesOn s = false) :
    performAll (List.replicate n (.eraseSector sec)) s = s := by
  induction n with
  | zero => rfl
  | succ n ih =>
    have hturn : perform (.eraseSector sec) s = s := by simp [perform, h]
    rw [List.replicate_succ, performAll_cons, hturn, ih]

/-- A turn of the loop that has the result `r` and leaves the results `rest`. -/
def sectorTurned (sec : Byte) (r : FlResult) (rest : List FlResult) (s : State) : State :=
  { s with
    status := joinStatus s.cfg s.status r
    i := s.i + 1#9
    mem := s.mem.forgetAll (inProgram s.cfg)
    trace := s.trace ++ [.flErase (turnSector sec s.i) r]
    env := { s.env with flDraws := rest } }

theorem perform_eraseSector {sec : Byte} {s : State} {r : FlResult} {rest : List FlResult}
    (hgo : eraseGoesOn s = true) (hdraws : s.env.flDraws = r :: rest) :
    perform (.eraseSector sec) s = sectorTurned sec r rest s := by
  simp [perform, hgo, primEraseSector, takeFl, eraseEffect, emit, sectorTurned, Env.nextFl, Env.takeFl, hdraws]

theorem turnSector_succ (sec : Byte) (i : BitVec 9) : turnSector sec (i + 1#9) = turnSector sec i + 1#8 := by
  have hw : (i + 1#9).setWidth 8 = i.setWidth 8 + 1#8 := BitVec.setWidth_add i 1#9 (by decide)
  rw [turnSector, hw, turnSector, BitVec.add_assoc]

/-- The loop after `n` turns that pass and leave the results `rest`. -/
def sectorsPassed (sec : Byte) (n : Nat) (rest : List FlResult) (s : State) : State :=
  { s with
    i := s.i + BitVec.ofNat 9 n
    mem := if n = 0 then s.mem else s.mem.forgetAll (inProgram s.cfg)
    trace := s.trace ++ eraseEvents (turnSector sec s.i) (List.replicate n .pass)
    env := { s.env with flDraws := rest } }

/-- Turns that pass, one after the other. -/
theorem performAll_eraseSector_passed (sec : Byte) (n : Nat) (rest : List FlResult) {s : State}
    (hn : s.i.toNat + n ≤ s.nsec.toNat) (hok : s.status = Config.stOk)
    (hdraws : s.env.flDraws = List.replicate n .pass ++ rest) :
    performAll (List.replicate n (.eraseSector sec)) s = sectorsPassed sec n rest s := by
  induction n generalizing s with
  | zero =>
    have henv : { s.env with flDraws := rest } = s.env := by rw [← show s.env.flDraws = rest from hdraws]
    simp [sectorsPassed, eraseEvents, henv]
  | succ n ih =>
    rw [List.replicate_succ, List.cons_append] at hdraws
    have hgo : eraseGoesOn s = true := (eraseGoesOn_iff s).2 ⟨by omega, hok⟩
    have hi : (s.i + 1#9).toNat = s.i.toNat + 1 := by bv_omega
    have hnext : s.i + 1#9 + BitVec.ofNat 9 n = s.i + BitVec.ofNat 9 (n + 1) := by
      rw [BitVec.add_assoc, Nat.add_comm n 1, BitVec.ofNat_add]
    rw [List.replicate_succ, performAll_cons, perform_eraseSector hgo hdraws,
      ih (s := sectorTurned sec .pass _ s) (by show (s.i + 1#9).toNat + n ≤ s.nsec.toNat; omega) hok rfl]
    simp [sectorsPassed, sectorTurned, joinStatus, hnext, turnSector_succ, List.replicate_succ, eraseEvents]

/-- An erase leaves the same of memory whether or not there was one before. -/
theorem forgetAll_ite (p : Prop) [Decidable p] (m : Memory) (q : Word → Bool) :
    (if p then m else m.forgetAll q).forgetAll q = m.forgetAll q := by
  split
  · rfl
  · exact forgetAll_forgetAll m q

theorem eraseEvents_append (sec : Byte) (rs rs' : List FlResult) :
    eraseEvents sec (rs ++ rs') = eraseEvents sec rs ++ eraseEvents (sec + BitVec.ofNat 8 rs.length) rs' := by
  induction rs generalizing sec with
  | nil => simp [eraseEvents]
  | cons r rs ih =>
    have hnext : sec + 1#8 + BitVec.ofNat 8 rs.length = sec + BitVec.ofNat 8 (r :: rs).length := by
      rw [BitVec.add_assoc, List.length_cons, Nat.add_comm, BitVec.ofNat_add]
    rw [List.cons_append, eraseEvents, ih, hnext]
    rfl

/-- The loop of `N` turns when the one after the first `k` is the first that fails: it ends there (R175). -/
theorem performAll_eraseSector_failed (sec : Byte) {k N : Nat} (rest : List FlResult) {s : State} (hk : k < N)
    (hfail : s.cfg.stHwFail ≠ Config.stOk) (hn : s.i.toNat + N ≤ s.nsec.toNat) (hok : s.status = Config.stOk)
    (hdraws : s.env.flDraws = List.replicate k .pass ++ .fail :: rest) :
    performAll (List.replicate N (.eraseSector sec)) s =
      sectorTurned sec .fail rest (sectorsPassed sec k (.fail :: rest) s) := by
  obtain ⟨j, rfl⟩ := Nat.exists_eq_add_of_lt hk
  have hi : (s.i + BitVec.ofNat 9 k).toNat = s.i.toNat + k := by
    simp only [BitVec.toNat_add, BitVec.toNat_ofNat]
    have hnsec := s.nsec.isLt
    omega
  have hgo : eraseGoesOn (sectorsPassed sec k (.fail :: rest) s) = true :=
    (eraseGoesOn_iff _).2 ⟨by show (s.i + BitVec.ofNat 9 k).toNat < s.nsec.toNat; omega, hok⟩
  have hend : eraseGoesOn (sectorTurned sec .fail rest (sectorsPassed sec k (.fail :: rest) s)) = false :=
    Bool.eq_false_iff.2 fun h => hfail ((eraseGoesOn_iff _).1 h).2
  rw [Nat.add_assoc, List.replicate_add, List.replicate_succ, performAll_append,
    performAll_eraseSector_passed sec k (.fail :: rest) (by omega) hok hdraws, performAll_cons,
    perform_eraseSector hgo rfl, performAll_eraseSector_ended sec j hend]

/-- FlashErase of `n` sectors where its loop begins. -/
def loopEntered (n : Byte) (s : State) : State :=
  { s with
    ph := .exec
    step := []
    nsec := n
    flLocked := false
    status := Config.stOk
    i := 0#9
    txq := s.txq ++ [0xA5#8, 0x01#8]
    trace := s.trace ++ [.tx 0xA5#8, .tx 0x01#8, .flUnlock] }

/-- A count of one byte fits `NSEC` and the loop counter. -/
theorem loopEntered_fits {s : State} {n : Nat} {cnt : Byte} (h : n ≤ cnt.toNat) :
    (loopEntered (BitVec.ofNat 8 n) s).i.toNat + n ≤ (loopEntered (BitVec.ofNat 8 n) s).nsec.toNat := by
  have hnsec : (BitVec.ofNat 8 n).toNat = n := Nat.mod_eq_of_lt (Nat.lt_of_le_of_lt h cnt.isLt)
  exact Nat.le_of_eq ((Nat.zero_add n).trans hnsec.symm)

/-- A request in range is the loop over the clamped range, and after it the lock and the status byte. -/
theorem exec_flashErase_of_inRange {s : State} {sec cnt : Byte} (hc : s.cfg.valid = true) (hg : s.env.grant = none)
    (hcnt : cnt.toNat ≤ s.cfg.maxSectors.toNat) (hsec : sec.toNat < s.cfg.maxSectors.toNat) {n : Nat}
    (hn : n = min cnt.toNat (s.cfg.maxSectors.toNat - sec.toNat)) :
    exec (.flashErase sec cnt) s = .next (performAll [.flashLock, .txStatus, .enterRxLen]
      (performAll (List.replicate n (.eraseSector sec)) (loopEntered (BitVec.ofNat 8 n) s))) := by
  obtain ⟨hrange, hmass⟩ := inRange_of_bounds hc hcnt hsec
  have hclamp : (clampedCount s.cfg sec cnt).toNat = n := hn ▸ clampedCount_toNat (Nat.le_of_lt hsec) cnt
  have hnsec : clampedCount s.cfg sec cnt = BitVec.ofNat 8 n := by rw [← hclamp, BitVec.ofNat_toNat, BitVec.setWidth_eq]
  rw [exec_eq, handlerOps, flashEraseOps_of_inRange hrange hmass, startHandler_free _ _ hg (by simp [ackHeader]),
    hclamp, hnsec]
  simp [ackHeader, perform, primTx, primFlashUnlock, emit, loopEntered]

/-- Settles O25: from the entry of the loop (`exec_flashErase_of_inRange`) every turn passes
(`performAll_eraseSector_passed`). -/
theorem eraseRunsTheClampedRange : Obligations.EraseRunsTheClampedRange := by
  intro s sec cnt rest hc hg hcnt hsec n hdraws
  have hloop := performAll_eraseSector_passed (s := loopEntered (BitVec.ofNat 8 n) s) sec n rest
    (loopEntered_fits (Nat.min_le_left _ _)) rfl hdraws
  rw [exec_flashErase_of_inRange hc hg hcnt hsec rfl, hloop]
  simp [perform, primFlashLock, primTx, emit, sectorsPassed, loopEntered, answered, turnSector, Config.stOk]

/-- Settles O26: from the entry of the loop (`exec_flashErase_of_inRange`) the turn after the first `k` fails and ends it
(`performAll_eraseSector_failed`). -/
theorem eraseStopsAtTheFirstFailure : Obligations.EraseStopsAtTheFirstFailure := by
  intro s sec cnt k rest hc hg hcnt hsec hk hdraws
  have hloop := performAll_eraseSector_failed (s := loopEntered (BitVec.ofNat 8 _) s) sec rest hk (stHwFail_ne_stOk hc)
    (loopEntered_fits (Nat.min_le_left _ _)) rfl hdraws
  rw [exec_flashErase_of_inRange hc hg hcnt hsec rfl, hloop]
  simp [perform, primFlashLock, primTx, emit, sectorTurned, sectorsPassed, loopEntered, answered, turnSector,
    joinStatus, forgetAll_ite, eraseEvents_append, eraseEvents, ← BitVec.ofNat_add]

end Sys2Proof.Machine
end

section
/-! PROOFS. That no command erases a sector that does not exist (spec/42_flash_erase.md R174): only FlashErase of a sector
range erases sectors, and only after it has set the clamped count. -/

namespace Sys2Proof.Machine

/-! ## What erases a sector (R174) -/

/-- Between the two states every sector erased is below `n`. -/
def ErasesBelow (n : Nat) (s t : State) : Prop :=
  ∃ es : List Event, t.trace = s.trace ++ es ∧ ∀ (x : Byte) (r : FlResult), .flErase x r ∈ es → x.toNat < n

theorem ErasesBelow.refl (n : Nat) (s : State) : ErasesBelow n s s :=
  ⟨[], (List.append_nil _).symm, fun _ _ h => absurd h List.not_mem_nil⟩

theorem ErasesBelow.trans {n : Nat} {s t u : State} (h : ErasesBelow n s t) (h' : ErasesBelow n t u) :
    ErasesBelow n s u := by
  obtain ⟨es, htrace, hes⟩ := h
  obtain ⟨es', htrace', hes'⟩ := h'
  exact ⟨es ++ es', by rw [htrace', htrace, List.append_assoc],
    fun x r hx => (List.mem_append.1 hx).elim (hes x r) (hes' x r)⟩

theorem ErasesBelow.event {n : Nat} {s t : State} {e : Event} (ht : t.trace = s.trace ++ [e])
    (he : ∀ (x : Byte) (r : FlResult), .flErase x r = e → x.toNat < n) : ErasesBelow n s t :=
  ⟨[e], ht, fun x r hx => he x r (List.mem_singleton.1 hx)⟩

theorem erasesBelow_launchMoves (n : Nat) (s : State) : ErasesBelow n s (launchMoves s) := by
  obtain h | h | ⟨-, -, h⟩ := launchMoves_cases s <;> rw [h]
  · exact .refl n s
  · exact .refl n s
  · exact .event rfl nofun

/-- Only the turns of FlashErase's loop erase sectors. -/
theorem erasesBelow_perform (n : Nat) {op : Op} (hop : ∀ sec, op ≠ .eraseSector sec) (s : State) :
    ErasesBelow n s (perform op s) := by
  cases op with
  | eraseSector sec => exact absurd rfl (hop sec)
  | txNackIfBad =>
    simp only [perform]
    split
    · exact .refl n s
    · exact .event rfl nofun
  | optSetOptstrt =>
    simp only [perform, primOptSetOptstrt]
    split <;> exact .event rfl nofun
  | waitOptIdle =>
    refine .trans (t := if s.optBusy then optComplete (takeOpt s) else s) ?_ (.event rfl nofun)
    split
    · exact .event rfl nofun
    · exact .refl n s
  | setStatus _ | massStatus | clearI | setNsec _ | judgeCrc | leaveVerify | enterRxLen | enterDead => exact .refl n s
  | _ => exact .event rfl nofun

/-- Only FlashErase of a sector range has such turns. -/
theorem eraseSector_mem_handlerOps {c : Cfg} {i : Instr} {x : Byte} (h : .eraseSector x ∈ handlerOps c i) :
    ∃ sec cnt, i = .flashErase sec cnt ∧ eraseOutOfRange c sec cnt = false ∧ cnt ≠ massSentinel := by
  cases i with
  | flashErase sec cnt =>
    refine ⟨sec, cnt, rfl, Bool.eq_false_iff.2 fun hout => ?_, fun hmass => ?_⟩
    · rw [handlerOps, flashEraseOps_of_outOfRange hout] at h
      simp [ackHeader] at h
    · rw [handlerOps, hmass, flashEraseOps_massSentinel] at h
      simp [ackHeader] at h
  | memRead addr dlen =>
    have hturns : Op.eraseSector x ∉ readTurns addr dlen.toNat := fun hx => by simpa using mem_readTurns hx
    simp [handlerOps, memReadOps, ackHeader, hturns] at h
  | memWrite addr data =>
    simp only [handlerOps, memWriteOps, memWriteWork] at h
    split at h <;> simp [ackHeader] at h
  | goToAddress addr =>
    simp only [handlerOps, goToAddressOps] at h
    split at h <;> simp [ackHeader] at h
  | enableWriteProtect mask flag =>
    simp only [handlerOps, enableWriteProtectOps] at h
    split at h <;> simp [ackHeader, updateNwrp] at h
  | getHelp => simp [handlerOps, getHelpOps, ackHeader] at h
  | getVersion | getChipId | getReadoutProtectionStatus | readSectorStatus | otpRead | disableWriteProtect =>
    simp [handlerOps, getVersionOps, getChipIdOps, getReadoutProtectionStatusOps, readSectorStatusOps, otpReadOps,
      disableWriteProtectOps, updateNwrp, ackHeader] at h

/-! ## Which sectors those are (R174) -/

/-- A turn whose condition holds is at a sector of the clamped range. -/
theorem turnSector_lt {c : Cfg} (hc : c.valid = true) {sec cnt : Byte} (hrange : eraseOutOfRange c sec cnt = false)
    (hmass : cnt ≠ massSentinel) {s : State} (hnsec : s.nsec = clampedCount c sec cnt) (hgo : eraseGoesOn s = true) :
    (turnSector sec s.i).toNat < c.maxSectors.toNat := by
  obtain ⟨-, hhigh⟩ := maxSectors_bounds hc
  have hsec : sec.toNat < c.maxSectors.toNat := by
    by_contra h
    exact Bool.eq_false_iff.1 hrange ((eraseOutOfRange_iff hc sec cnt).2 ⟨hmass, .inr (Nat.le_of_not_lt h)⟩)
  obtain ⟨hi, -⟩ := (eraseGoesOn_iff s).1 hgo
  rw [hnsec, clampedCount_toNat (Nat.le_of_lt hsec)] at hi
  simp only [turnSector, BitVec.toNat_add, BitVec.toNat_setWidth]
  omega

/-- A run without such turns erases nothing. -/
theorem run_erasesBelow (n : Nat) {ops : List Op} (hops : ∀ x, .eraseSector x ∉ ops) (s : State) :
    ErasesBelow n s (run ops s) :=
  run_induction (P := ErasesBelow n s) (fun _ _ h => h) (fun _ h => h) ops s
    (fun _ a h => h.trans (erasesBelow_launchMoves n a))
    (fun _ hop a h => h.trans (erasesBelow_perform n (fun x hx => hops x (hx ▸ hop)) a)) (.refl n s)

theorem perform_nsec {op : Op} (hop : ∀ n, op ≠ .setNsec n) (s : State) : (perform op s).nsec = s.nsec := by
  cases op with
  | setNsec n => exact absurd rfl (hop n)
  | txNackIfBad | eraseSector _ | waitOptIdle | optSetOptstrt =>
    simp only [perform, primWaitOptIdle, primOptSetOptstrt]
    split <;> rfl
  | _ => rfl

/-- Once `NSEC` holds the clamped count, a run whose turns are from sector `sec` erases sectors that exist. -/
theorem run_erasesBelow_maxSectors {c : Cfg} (hc : c.valid = true) {sec cnt : Byte}
    (hrange : eraseOutOfRange c sec cnt = false) (hmass : cnt ≠ massSentinel) {ops : List Op}
    (hturns : ∀ x, .eraseSector x ∈ ops → x = sec) (hkeeps : ∀ n, .setNsec n ∉ ops) {s : State}
    (hnsec : s.nsec = clampedCount c sec cnt) : ErasesBelow c.maxSectors.toNat s (run ops s) := by
  refine (run_induction (P := fun a => a.nsec = clampedCount c sec cnt ∧ ErasesBelow c.maxSectors.toNat s a)
    (fun _ _ h => h) (fun _ h => h) ops s (fun _ a ⟨hn, h⟩ => ?_) (fun op hop a ⟨hn, h⟩ => ?_)
    ⟨hnsec, .refl _ s⟩).2
  · exact ⟨(launchMoves_nsec a).trans hn, h.trans (erasesBelow_launchMoves _ a)⟩
  · refine ⟨(perform_nsec (fun n hx => hkeeps n (hx ▸ hop)) a).trans hn, h.trans ?_⟩
    by_cases hx : ∃ x, op = .eraseSector x
    · obtain ⟨x, rfl⟩ := hx
      obtain rfl := hturns x hop
      simp only [perform]
      split
      next hgo =>
        refine .event (e := .flErase (turnSector x a.i) a.env.nextFl) rfl fun y r hy => ?_
        obtain ⟨rfl, -⟩ := Event.flErase.inj hy
        exact turnSector_lt hc hrange hmass hn hgo
      · exact .refl _ a
    · exact erasesBelow_perform _ (fun x h => hx ⟨x, h⟩) a

/-- FlashErase of a sector range writes `NSEC` right after its Ack header. -/
theorem flashErase_erasesBelow {s : State} (hc : s.cfg.valid = true) {sec cnt : Byte}
    (hrange : eraseOutOfRange s.cfg sec cnt = false) (hmass : cnt ≠ massSentinel) :
    ErasesBelow s.cfg.maxSectors.toNat s (startHandler (flashEraseOps s.cfg sec cnt) s) := by
  rw [flashEraseOps_of_inRange hrange hmass, startHandler]
  obtain h | h | h := run_ackHeader 1#8 (.setNsec (clampedCount s.cfg sec cnt) :: _)
    { s with ph := .exec, step := [] } <;> rw [h]
  · exact .refl _ s
  · exact .event (e := .tx 0xA5#8) rfl nofun
  · rw [run_cons_of_done (advance_of_callsNothing rfl)]
    have hheader : ErasesBelow s.cfg.maxSectors.toNat s (primTx 1#8 (primTx 0xA5#8 s)) :=
      (ErasesBelow.event (t := primTx 0xA5#8 s) rfl nofun).trans (.event rfl nofun)
    exact hheader.trans (run_erasesBelow_maxSectors hc hrange hmass (sec := sec) (by simp) (by simp) rfl)

/-- Settles O27: a command with turns of the erase loop is FlashErase of a sector range (`eraseSector_mem_handlerOps`),
whose turns stay in the clamped range (`turnSector_lt`). -/
theorem erasedSectorsExist : Obligations.ErasedSectorsExist := by
  intro s t i hc ht
  obtain rfl := Host.Outcome.next.inj ((exec_eq i s).symm.trans ht)
  by_cases hturn : ∃ x, .eraseSector x ∈ handlerOps s.cfg i
  · obtain ⟨x, hx⟩ := hturn
    obtain ⟨sec, cnt, rfl, hrange, hmass⟩ := eraseSector_mem_handlerOps hx
    exact flashErase_erasesBelow hc hrange hmass
  · exact run_erasesBelow _ (fun x hx => hturn ⟨x, hx⟩) { s with ph := .exec, step := [] }

end Sys2Proof.Machine
end

section
/-! PROOFS. The frame of FlashErase: what its entries may change, and what an out-of-range request leaves alone
(spec/42_flash_erase.md R170, R171). -/

namespace Sys2Proof.Machine

/-! ## What FlashErase may change (R31, R170) -/

/-- The first state, with what FlashErase may change taken from the second. -/
def eraseUpdated (s t : State) : State :=
  { s with
    ph := t.ph, step := t.step, r := t.r, status := t.status, i := t.i, nsec := t.nsec, flLocked := t.flLocked,
    mem := t.mem, txq := t.txq, trace := t.trace,
    env := { s.env with grant := t.env.grant, flDraws := t.env.flDraws, draws := t.env.draws } }

/-- Between the two states nothing has changed but what FlashErase may change. -/
structure EraseFrame (s t : State) : Prop where
  others : t = eraseUpdated s t
  memory : ∀ n : Nat, inProgram s.cfg (BitVec.ofNat 32 n) = false → t.mem.read? n = s.mem.read? n

theorem EraseFrame.trans {s t u : State} (h : EraseFrame s t) (h' : EraseFrame t u) : EraseFrame s u where
  others := calc
    u = eraseUpdated t u := h'.others
    _ = eraseUpdated (eraseUpdated s t) u := congrArg (eraseUpdated · u) h.others
    _ = eraseUpdated s u := rfl
  memory n hn := by
    have hcfg : t.cfg = s.cfg := (congrArg State.cfg h.others).trans rfl
    rw [h'.memory n (hcfg.symm ▸ hn), h.memory n hn]

theorem EraseFrame.of_mem {s t : State} (h : t = eraseUpdated s t) (hmem : t.mem = s.mem) : EraseFrame s t :=
  ⟨h, fun _ _ => hmem ▸ rfl⟩

theorem eraseUpdated_takeFl (s : State) : takeFl s = eraseUpdated s (takeFl s) := by
  unfold takeFl Env.takeFl
  split <;> rfl

/-- The two erase primitives use up a result and forget program memory. -/
theorem eraseFrame_takeFl_eraseEffect (e : Event) (s : State) : EraseFrame s (eraseEffect (emit e (takeFl s))) where
  others := congrArg (fun a => eraseEffect (emit e a)) (eraseUpdated_takeFl s)
  memory _ hn := read?_forgetAll_other s.mem _ hn

/-- The entries FlashErase's handler is made of. -/
def isEraseEntry : Op → Bool
  | .tx _ | .txStatus | .setStatus _ | .flashUnlock | .flashLock | .massErase | .massStatus | .setNsec _ | .clearI
  | .eraseSector _ | .enterRxLen => true
  | _ => false

theorem flashEraseOps_isEraseEntry (c : Cfg) (sec cnt : Byte) :
    ∀ op ∈ flashEraseOps c sec cnt, isEraseEntry op = true := by
  rw [← List.all_eq_true]
  unfold flashEraseOps flashEraseWork
  split
  · rfl
  split
  · rfl
  · simp [isEraseEntry, ackHeader]

theorem eraseFrame_perform {op : Op} (hop : isEraseEntry op = true) (s : State) : EraseFrame s (perform op s) := by
  cases op with
  | massErase => exact (eraseFrame_takeFl_eraseEffect (.flMass s.env.nextFl) s).trans (.of_mem rfl rfl)
  | eraseSector sec =>
    simp only [perform]
    split
    · exact (eraseFrame_takeFl_eraseEffect (.flErase (turnSector sec s.i) s.env.nextFl) s).trans (.of_mem rfl rfl)
    · exact .of_mem rfl rfl
  | tx _ | txStatus | setStatus _ | flashUnlock | flashLock | massStatus | setNsec _ | clearI | enterRxLen =>
    exact .of_mem rfl rfl
  | _ => cases hop

theorem exec_flashErase_frame {s t : State} {sec cnt : Byte} (ht : exec (.flashErase sec cnt) s = .next t) :
    EraseFrame s t := by
  have hentry := flashEraseOps_isEraseEntry s.cfg sec cnt
  exact exec_induction (R := EraseFrame) ht (.of_mem rfl rfl) (fun _ _ h => h.trans (.of_mem rfl rfl))
    (fun _ h => h.trans (.of_mem rfl rfl)) (fun hw => absurd (hentry _ hw) (by decide))
    (fun op hop a h => h.trans (eraseFrame_perform (hentry op hop) a))

/-! ## Out of range (R171) -/

/-- The memory controller, memory and the loop's registers are the same in both states. -/
def ControllerUntouched (s t : State) : Prop :=
  t.flLocked = s.flLocked ∧ t.i = s.i ∧ t.nsec = s.nsec ∧ t.r = s.r ∧ t.mem = s.mem

/-- Out of range FlashErase only transmits and writes STATUS (R171). -/
theorem exec_flashErase_outOfRange_untouched {s t : State} {sec cnt : Byte}
    (hout : eraseOutOfRange s.cfg sec cnt = true) (ht : exec (.flashErase sec cnt) s = .next t) :
    ControllerUntouched s t := by
  have hops : handlerOps s.cfg (.flashErase sec cnt) = _ := flashEraseOps_of_outOfRange hout
  refine exec_induction (R := ControllerUntouched) ht ⟨rfl, rfl, rfl, rfl, rfl⟩ (fun _ _ h => h) (fun _ h => h)
    (fun hw => ?_) fun op hop a h => ?_
  · rw [hops] at hw
    simp [ackHeader] at hw
  · rw [hops] at hop
    simp only [ackHeader, List.cons_append, List.nil_append, List.mem_cons, List.not_mem_nil, or_false] at hop
    obtain rfl | rfl | rfl | rfl | rfl := hop <;> exact h

/-- Settles O40: each entry of the handler keeps the frame (`eraseFrame_perform`), and an out-of-range request has none of
those that touch the memory controller (`exec_flashErase_outOfRange_untouched`). -/
theorem flashEraseFrame : Obligations.FlashEraseFrame := by
  intro s t sec cnt ht
  obtain ⟨hothers, hmemory⟩ := exec_flashErase_frame ht
  exact ⟨hothers, hmemory, fun hout => exec_flashErase_outOfRange_untouched hout ht⟩

end Sys2Proof.Machine
end

section
/-! PROOFS. MemWrite, completed (spec/43_mem_write_read.md): nothing but a status to an invalid address, every byte
attempted inside the bracket to program memory, and one bus write per byte to volatile memory (R185 to R191). -/

namespace Sys2Proof.Machine

/-! ## The list of each class (R185) -/

theorem memWriteOps_of_invalid {c : Cfg} {addr : Word} (h : classify c addr = .invalid) (data : List Byte) :
    memWriteOps c addr data = ackHeader 1#8 ++ [.setStatus Config.stFail, .txStatus, .enterRxLen] := by
  simp [memWriteOps, memWriteWork, h]

theorem memWriteOps_of_programMemory {c : Cfg} {addr : Word} (h : classify c addr = .programMemory)
    (data : List Byte) :
    memWriteOps c addr data =
      (ackHeader 1#8 ++ [.flashUnlock, .setStatus Config.stOk]) ++
        .clearI :: (data.map (.programByte addr) ++ [.flashLock, .txStatus, .enterRxLen]) := by
  simp [memWriteOps, memWriteWork, h]

theorem memWriteOps_of_volatileMemory {c : Cfg} {addr : Word} (h : classify c addr = .volatileMemory)
    (data : List Byte) :
    memWriteOps c addr data =
      ackHeader 1#8 ++
        .clearI :: (data.map (.busWrite addr) ++ [.setStatus Config.stOk, .txStatus, .enterRxLen]) := by
  simp [memWriteOps, memWriteWork, h]

/-! ## An invalid address (R187) -/

/-- Settles O28: to an invalid address the handler is the Ack header and the status byte (`memWriteOps_of_invalid`). -/
theorem writeToInvalidAddressWritesNothing : Obligations.WriteToInvalidAddressWritesNothing := by
  intro s addr data hg hinvalid
  rw [exec_eq, handlerOps, memWriteOps_of_invalid hinvalid, startHandler_free _ _ hg (by simp [ackHeader])]
  simp [ackHeader, perform, primTx, emit, answered, txs, Config.stFail]

/-! ## The loop counter (R28, R110) -/

/-- Below the end of the 9-bit counter a turn adds one to it. -/
theorem turn_toNat_succ {i : BitVec 9} (hi : i.toNat + 1 < 512) : (i + 1#9).toNat = i.toNat + 1 := by
  bv_omega

theorem turn_add_succ (i : BitVec 9) (n : Nat) : i + 1#9 + BitVec.ofNat 9 n = i + BitVec.ofNat 9 (n + 1) := by
  rw [BitVec.add_assoc, Nat.add_comm n 1, BitVec.ofNat_add]

/-! ## Program memory (R188, R189) -/

/-- A turn of the loop that programs `d` with the result `r` and leaves the results `rest`. -/
def byteProgrammed (addr : Word) (d : Byte) (r : FlResult) (rest : List FlResult) (s : State) : State :=
  { s with
    status := joinStatus s.cfg s.status r
    i := s.i + 1#9
    mem := programmed s.cfg s.env.memKeeps (turnAddr addr s.i) [(d, r)] s.mem
    trace := s.trace ++ [.flProg (turnAddr addr s.i) d r]
    env := { s.env with flDraws := rest } }

theorem perform_programByte (addr : Word) (d : Byte) {r : FlResult} {rest : List FlResult} {s : State}
    (hdraws : s.env.flDraws = r :: rest) :
    perform (.programByte addr d) s = byteProgrammed addr d r rest s := by
  simp [perform, primProgramByte, takeFl, programEffect, emit, byteProgrammed, programmed, Env.nextFl, Env.takeFl,
    hdraws]

/-- The loop after turns with these bytes and results, which leave the results `rest`: a failure sticks in the status. -/
def bytesProgrammed (addr : Word) (turns : List (Byte × FlResult)) (rest : List FlResult) (s : State) : State :=
  { s with
    status := if .fail ∈ turns.map Prod.snd then s.cfg.stHwFail else s.status
    i := s.i + BitVec.ofNat 9 turns.length
    mem := programmed s.cfg s.env.memKeeps (turnAddr addr s.i) turns s.mem
    trace := s.trace ++ programEvents (turnAddr addr s.i) turns
    env := { s.env with flDraws := rest } }

/-- A turn and then the others are all of them, while the counter does not wrap. -/
theorem bytesProgrammed_byteProgrammed (addr : Word) (d : Byte) (r : FlResult) (turns : List (Byte × FlResult))
    (rest' rest : List FlResult) {s : State} (hi : s.i.toNat + 1 < 512) :
    bytesProgrammed addr turns rest (byteProgrammed addr d r rest' s) =
      bytesProgrammed addr ((d, r) :: turns) rest s := by
  have hstatus : (if .fail ∈ turns.map Prod.snd then s.cfg.stHwFail else joinStatus s.cfg s.status r) =
      if .fail ∈ ((d, r) :: turns).map Prod.snd then s.cfg.stHwFail else s.status := by
    cases r <;> simp [joinStatus]
  simp only [bytesProgrammed, byteProgrammed, hstatus, turn_add_succ, turnAddr_succ addr hi, List.append_assoc]
  rfl

/-- Every byte is attempted, whatever the results. -/
theorem performAll_programByte (addr : Word) (turns : List (Byte × FlResult)) (rest : List FlResult) {s : State}
    (hi : s.i.toNat + turns.length < 512) (hdraws : s.env.flDraws = turns.map Prod.snd ++ rest) :
    performAll ((turns.map Prod.fst).map (.programByte addr)) s = bytesProgrammed addr turns rest s := by
  induction turns generalizing s with
  | nil =>
    have henv : { s.env with flDraws := rest } = s.env := by rw [← show s.env.flDraws = rest from hdraws]
    simp [bytesProgrammed, programmed, programEvents, henv]
  | cons turn turns ih =>
    obtain ⟨d, r⟩ := turn
    rw [List.length_cons] at hi
    rw [List.map_cons, List.cons_append] at hdraws
    have hnext : (s.i + 1#9).toNat + turns.length < 512 := by rw [turn_toNat_succ (by omega)]; omega
    rw [List.map_cons, List.map_cons, performAll_cons, perform_programByte addr d hdraws,
      ih (s := byteProgrammed addr d r _ s) hnext rfl, bytesProgrammed_byteProgrammed addr d r turns _ rest (by omega)]

/-- Settles O29: between unlock and lock the loop attempts every byte (`performAll_programByte`), from turn 0 on. -/
theorem programWriteAttemptsEveryByte : Obligations.ProgramWriteAttemptsEveryByte := by
  intro s addr data rs rest hg hwf hprogram hlen hdraws st
  have hfits := (wf_memWrite addr data).1 hwf
  have hdata : (data.zip rs).map Prod.fst = data := List.map_fst_zip (Nat.le_of_eq hlen.symm)
  have hrs : (data.zip rs).map Prod.snd = rs := List.map_snd_zip (Nat.le_of_eq hlen)
  have hturns : (data.zip rs).length = data.length := by rw [List.length_zip, hlen, Nat.min_self]
  have hloop (s₀ : State) (hi : s₀.i = 0#9) (henv : s₀.env = s.env) :
      performAll (data.map (.programByte addr)) s₀ = bytesProgrammed addr (data.zip rs) rest s₀ := by
    have h := performAll_programByte (s := s₀) addr (data.zip rs) rest
      (by rw [hi, hturns]; show 0 + data.length < 512; omega) (by rw [henv, hrs, hdraws])
    rwa [hdata] at h
  rw [exec_eq, handlerOps, memWriteOps_of_programMemory hprogram, startHandler_free _ _ hg (by simp [ackHeader]),
    performAll_append, performAll_cons, performAll_append, hloop]
  · simp [ackHeader, perform, primTx, primFlashUnlock, primFlashLock, emit, answered, bytesProgrammed, hrs, hlen,
      turnAddr_zero, Config.stOk, st]
  · rfl
  · rfl

/-! ## Volatile memory (R190) -/

/-- The loop after turns with these bytes. -/
def bytesBusWritten (addr : Word) (data : List Byte) (s : State) : State :=
  { s with
    i := s.i + BitVec.ofNat 9 data.length
    mem := busWritten s.cfg s.env.memKeeps (turnAddr addr s.i) data s.mem
    trace := s.trace ++ busWriteEvents (turnAddr addr s.i) data }

theorem performAll_busWrite (addr : Word) (data : List Byte) {s : State} (hi : s.i.toNat + data.length < 512) :
    performAll (data.map (.busWrite addr)) s = bytesBusWritten addr data s := by
  induction data generalizing s with
  | nil => simp [bytesBusWritten, busWritten, busWriteEvents]
  | cons d ds ih =>
    rw [List.length_cons] at hi
    have hnext : (s.i + 1#9).toNat + ds.length < 512 := by rw [turn_toNat_succ (by omega)]; omega
    rw [List.map_cons, performAll_cons, ih (s := perform (.busWrite addr d) s) hnext]
    simp [perform, primBusWrite, busWriteEffect, emit, bytesBusWritten, busWritten, busWriteEvents, turn_add_succ,
      turnAddr_succ addr (show s.i.toNat + 1 < 512 by omega)]

/-- Settles O30: the loop is one bus write per byte (`performAll_busWrite`), and nothing else touches memory. -/
theorem volatileWriteCopiesEveryByte : Obligations.VolatileWriteCopiesEveryByte := by
  intro s addr data hg hwf hvolatile
  have hfits := (wf_memWrite addr data).1 hwf
  have hloop (s₀ : State) (hi : s₀.i = 0#9) :
      performAll (data.map (.busWrite addr)) s₀ = bytesBusWritten addr data s₀ :=
    performAll_busWrite addr data (by rw [hi]; show 0 + data.length < 512; omega)
  rw [exec_eq, handlerOps, memWriteOps_of_volatileMemory hvolatile, startHandler_free _ _ hg (by simp [ackHeader]),
    performAll_append, performAll_cons, performAll_append, hloop _ rfl]
  simp [ackHeader, perform, primTx, emit, answered, bytesBusWritten, turnAddr_zero, Config.stOk]

end Sys2Proof.Machine
end

section
/-! PROOFS. MemRead, completed (spec/43_mem_write_read.md): bytes are read and transmitted in turn, known ones as they are
and unknown ones as the environment chooses (R195 to R198). -/

namespace Sys2Proof.Machine

/-! ## What the reads return (R196) -/

/-- The environment's choices after a read of address `a`. -/
def envAfterRead (m : Memory) (a : Word) (e : Env) : Env := if (m.read? a.toNat).isSome then e else e.takeRd

/-- The bytes that `n` reads from `a` on return. -/
def bytesRead (m : Memory) : Word → Nat → Env → List Byte
  | _, 0, _ => []
  | a, n + 1, e => (m.read? a.toNat).getD e.nextRd :: bytesRead m (a + 1#32) n (envAfterRead m a e)

/-- The environment's choices after `n` reads from `a` on. -/
def envAfterReads (m : Memory) : Word → Nat → Env → Env
  | _, 0, e => e
  | a, n + 1, e => envAfterReads m (a + 1#32) n (envAfterRead m a e)

theorem length_bytesRead (m : Memory) (a : Word) (n : Nat) (e : Env) : (bytesRead m a n e).length = n := by
  induction n generalizing a e with
  | zero => rfl
  | succ n ih => rw [bytesRead, List.length_cons, ih]

/-- A byte that is known is the byte returned, whatever the environment's choices. -/
theorem bytesRead_of_known {m : Memory} {a : Word} {n : Nat} {e : Env} {k : Nat} {b : Byte} (hk : k < n)
    (hb : m.read? (a + BitVec.ofNat 32 k).toNat = some b) : (bytesRead m a n e)[k]? = some b := by
  induction n generalizing a e k with
  | zero => cases hk
  | succ n ih =>
    cases k with
    | zero =>
      have hfirst : m.read? a.toNat = some b := by simpa using hb
      simp [bytesRead, hfirst]
    | succ k => exact ih (Nat.lt_of_succ_lt_succ hk) (add_ofNat_succ a k ▸ hb)

/-- Bytes that are all unknown are the environment's next choices. -/
theorem bytesRead_of_unknown {m : Memory} {a : Word} {bs rest : List Byte} {e : Env}
    (hm : ∀ k, k < bs.length → m.read? (a + BitVec.ofNat 32 k).toNat = none) (he : e.rdDraws = bs ++ rest) :
    bytesRead m a bs.length e = bs := by
  induction bs generalizing a e with
  | nil => rfl
  | cons b bs ih =>
    rw [List.cons_append] at he
    have hfirst : m.read? a.toNat = none := by simpa using hm 0 (Nat.succ_pos _)
    have hnext : (envAfterRead m a e).rdDraws = bs ++ rest := by simp [envAfterRead, hfirst, Env.takeRd, he]
    rw [List.length_cons, bytesRead,
      ih (fun k hk => add_ofNat_succ a k ▸ hm (k + 1) (Nat.succ_lt_succ hk)) hnext]
    simp [hfirst, Env.nextRd, he]

/-! ## The loop (R195, R197) -/

/-- The loop after `n` turns, the last of which has left `w` in the local value. -/
def bytesReturned (addr : Word) (n : Nat) (w : Word) (s : State) : State :=
  { s with
    v := w
    i := s.i + BitVec.ofNat 9 n
    txq := s.txq ++ bytesRead s.mem (turnAddr addr s.i) n s.env
    trace := s.trace ++ readEvents (turnAddr addr s.i) (bytesRead s.mem (turnAddr addr s.i) n s.env)
    env := envAfterReads s.mem (turnAddr addr s.i) n s.env }

/-- A turn is a loop of one. -/
theorem perform_txRead_busRead (addr : Word) (s : State) :
    perform .txRead (perform (.busRead addr) s) =
      bytesReturned addr 1 ((busValue (turnAddr addr s.i) s).setWidth 32) s := by
  have hbyte (b : Byte) : (b.setWidth 32).setWidth 8 = b := BitVec.setWidth_setWidth_of_le b (by decide)
  simp [perform, primBusRead, primTxRead, primTx, emit, busTaken, busValue, hbyte, bytesReturned, bytesRead,
    readEvents, envAfterReads, envAfterRead]

/-- A turn and then `n` more are `n + 1`, while the counter does not wrap. -/
theorem bytesReturned_bytesReturned (addr : Word) (n : Nat) (w w' : Word) {s : State} (hi : s.i.toNat + 1 < 512) :
    bytesReturned addr n w (bytesReturned addr 1 w' s) = bytesReturned addr (n + 1) w s := by
  simp [bytesReturned, bytesRead, readEvents, envAfterReads, turn_add_succ, turnAddr_succ addr hi]

theorem performAll_readTurns (addr : Word) (n : Nat) {s : State} (hi : s.i.toNat + n < 512) :
    ∃ w, performAll (readTurns addr n) s = bytesReturned addr n w s := by
  induction n generalizing s with
  | zero => exact ⟨s.v, by simp [readTurns, bytesReturned, bytesRead, readEvents, envAfterReads]⟩
  | succ n ih =>
    have hnext : (s.i + 1#9).toNat + n < 512 := by rw [turn_toNat_succ (by omega)]; omega
    obtain ⟨w, hw⟩ := ih (s := bytesReturned addr 1 ((busValue (turnAddr addr s.i) s).setWidth 32) s) hnext
    refine ⟨w, ?_⟩
    rw [readTurns, performAll_cons, performAll_cons, perform_txRead_busRead, hw,
      bytesReturned_bytesReturned addr n w _ (by omega)]

theorem waitOptIdle_notMem_readTurns (addr : Word) (n : Nat) : .waitOptIdle ∉ readTurns addr n := fun h => by
  simpa using mem_readTurns h

/-- Settles O32: the loop transmits what its reads return (`performAll_readTurns`), which are the known bytes
(`bytesRead_of_known`) or, where none is known, the environment's choices (`bytesRead_of_unknown`). -/
theorem memReadReturnsTheBytes : Obligations.MemReadReturnsTheBytes := by
  intro s addr dlen hg
  have hwait : .waitOptIdle ∉ memReadOps addr dlen := by
    simp [memReadOps, ackHeader, waitOptIdle_notMem_readTurns]
  obtain ⟨w, hloop⟩ := performAll_readTurns (s := performAll (ackHeader dlen ++ [.clearI])
    { s with ph := .exec, step := [] }) addr dlen.toNat (by show 0 + dlen.toNat < 512; omega)
  refine ⟨bytesRead s.mem addr dlen.toNat s.env, w, envAfterReads s.mem addr dlen.toNat s.env, ?_,
    length_bytesRead _ _ _ _, fun k b hk hb => bytesRead_of_known hk hb, fun hm bs rest hbs he => ?_⟩
  · rw [exec_eq, handlerOps, startHandler_free _ _ hg hwait, memReadOps, performAll_append, performAll_append, hloop]
    simp [ackHeader, perform, primTx, emit, answered, bytesReturned, turnAddr_zero]
  · rw [← hbs] at hm ⊢
    exact bytesRead_of_unknown hm he

end Sys2Proof.Machine
end

section
/-! PROOFS. Frames as an update that a command stays inside, whatever the environment draws and wherever it holds, and
those of the reading queries and of MemRead (spec/43_mem_write_read.md R195; spec/44_write_protection.md R215;
spec/45_device_info.md R227, R229). -/

namespace Sys2Proof.Machine

/-! ## Frames -/

/-- `update s t` is `s` with what a frame lets change taken from `t`: among that the sequencer's position and the count of
completed primitives, which running a list changes. -/
structure IsFrame (update : State → State → State) : Prop where
  trans : ∀ s t u, update (update s t) u = update s u
  moved : ∀ s p l, { s with ph := p, step := l } = update s { s with ph := p, step := l }
  spent : ∀ s, spend s = update s (spend s)

theorem IsFrame.chain {update : State → State → State} (hf : IsFrame update) {s t u : State} (h : t = update s t)
    (h' : u = update t u) : u = update s u := calc
  u = update t u := h'
  _ = update (update s t) u := congrArg (update · u) h
  _ = update s u := hf.trans s t u

/-- A command that has no wait stays inside a frame when each entry of its list does. -/
theorem exec_inFrame {update : State → State → State} (hf : IsFrame update) {i : Instr} {s t : State}
    (ht : exec i s = .next t) (hwait : .waitOptIdle ∉ handlerOps s.cfg i)
    (hp : ∀ op ∈ handlerOps s.cfg i, ∀ a, perform op a = update a (perform op a)) : t = update s t :=
  exec_induction (R := fun a b => b = update a b) ht (hf.moved s _ _) (fun a l h => hf.chain h (hf.moved a a.ph l))
    (fun a h => hf.chain h (hf.spent a)) (fun hw => absurd hw hwait) (fun op hop a h => hf.chain h (hp op hop a))

/-! ## The reading queries and MemRead (R195, R215, R227, R229) -/

/-- The first state, with what a reading query may change taken from the second. -/
def queryUpdated (s t : State) : State :=
  { s with
    ph := t.ph, step := t.step, v := t.v, txq := t.txq, trace := t.trace, env := { s.env with grant := t.env.grant } }

theorem queryUpdated_isFrame : IsFrame queryUpdated := ⟨fun _ _ _ => rfl, fun _ _ _ => rfl, fun _ => rfl⟩

/-- The first state, with what MemRead may change taken from the second. -/
def readUpdated (s t : State) : State :=
  { s with
    ph := t.ph, step := t.step, v := t.v, i := t.i, txq := t.txq, trace := t.trace,
    env := { s.env with grant := t.env.grant, rdDraws := t.env.rdDraws, draws := t.env.draws } }

theorem readUpdated_isFrame : IsFrame readUpdated := ⟨fun _ _ _ => rfl, fun _ _ _ => rfl, fun _ => rfl⟩

/-- The entries the three queries' handlers are made of. -/
def isQueryEntry : Op → Bool
  | .tx _ | .txValue | .txIdLow | .txIdHigh | .dbgIdRead | .obReadRdp | .optReadNwrp | .enterRxLen => true
  | _ => false

theorem perform_queryUpdated {op : Op} (hop : isQueryEntry op = true) (s : State) :
    perform op s = queryUpdated s (perform op s) := by
  cases op with
  | tx _ | txValue | txIdLow | txIdHigh | dbgIdRead | obReadRdp | optReadNwrp | enterRxLen => rfl
  | _ => cases hop

theorem handlerOps_isQueryEntry (c : Cfg) {i : Instr}
    (hi : i = .getChipId ∨ i = .getReadoutProtectionStatus ∨ i = .readSectorStatus) :
    ∀ op ∈ handlerOps c i, isQueryEntry op = true := by
  rw [← List.all_eq_true]
  obtain rfl | rfl | rfl := hi <;> rfl

theorem busTaken_readUpdated (a : Word) (s : State) : busTaken a s = readUpdated s (busTaken a s) := by
  unfold busTaken Env.takeRd
  split
  · rfl
  · split <;> rfl

/-- A read may use up a choice, and writes the local value. -/
theorem perform_busRead_readUpdated (addr : Word) (s : State) :
    perform (.busRead addr) s = readUpdated s (perform (.busRead addr) s) :=
  readUpdated_isFrame.chain (busTaken_readUpdated (turnAddr addr s.i) s) rfl

theorem mem_memReadOps {op : Op} {addr : Word} {dlen : Byte} (h : op ∈ memReadOps addr dlen) :
    (∃ b, op = .tx b) ∨ op = .clearI ∨ op = .busRead addr ∨ op = .txRead ∨ op = .enterRxLen := by
  simp only [memReadOps, ackHeader, List.mem_append, List.mem_cons, List.not_mem_nil, or_false] at h
  obtain (((rfl | rfl) | rfl) | h) | rfl := h
  · exact .inl ⟨_, rfl⟩
  · exact .inl ⟨_, rfl⟩
  · exact .inr (.inl rfl)
  · obtain rfl | rfl := mem_readTurns h
    · exact .inr (.inr (.inl rfl))
    · exact .inr (.inr (.inr (.inl rfl)))
  · exact .inr (.inr (.inr (.inr rfl)))

theorem perform_readUpdated {op : Op} {addr : Word} {dlen : Byte} (hop : op ∈ memReadOps addr dlen) (s : State) :
    perform op s = readUpdated s (perform op s) := by
  obtain ⟨b, rfl⟩ | rfl | rfl | rfl | rfl := mem_memReadOps hop
  · rfl
  · rfl
  · exact perform_busRead_readUpdated addr s
  · rfl
  · rfl

/-- Settles O39: each entry of a query's list only transmits or writes the local value (`perform_queryUpdated`), and each of
MemRead's that, `I`, or a choice used up (`perform_readUpdated`). -/
theorem readingQueriesFrame : Obligations.ReadingQueriesFrame := by
  intro s t i ht
  refine ⟨fun hi => ?_, fun addr dlen hi => ?_⟩
  · have hentry := handlerOps_isQueryEntry s.cfg hi
    exact exec_inFrame queryUpdated_isFrame ht (fun hw => absurd (hentry _ hw) (by decide))
      fun op hop => perform_queryUpdated (hentry op hop)
  · subst hi
    exact exec_inFrame readUpdated_isFrame ht (fun hw => by simpa using mem_memReadOps hw)
      fun op hop => perform_readUpdated hop

end Sys2Proof.Machine
end

section
/-! PROOFS. The frame of MemWrite: what its entries may change, which bytes of memory its turns address, and what the
other two classes leave alone (spec/43_mem_write_read.md R185, R187, R190, R191). -/

namespace Sys2Proof.Machine

/-! ## What MemWrite may change besides memory (R185) -/

/-- The first state, with what MemWrite may change taken from the second. -/
def writeUpdated (s t : State) : State :=
  { s with
    ph := t.ph, step := t.step, status := t.status, i := t.i, flLocked := t.flLocked,
    mem := t.mem, txq := t.txq, trace := t.trace,
    env := { s.env with grant := t.env.grant, flDraws := t.env.flDraws, draws := t.env.draws } }

theorem writeUpdated_isFrame : IsFrame writeUpdated := ⟨fun _ _ _ => rfl, fun _ _ _ => rfl, fun _ => rfl⟩

theorem takeFl_writeUpdated (s : State) : takeFl s = writeUpdated s (takeFl s) := by
  unfold takeFl Env.takeFl
  split <;> rfl

/-! ## The entries of MemWrite's handler (R185) -/

/-- Those that store nothing to memory. -/
def storesNothing : Op → Bool
  | .tx _ | .txStatus | .setStatus _ | .flashUnlock | .flashLock | .clearI | .enterRxLen => true
  | _ => false

/-- Those that store: the turns of its two loops. -/
def IsTurn (addr : Word) (op : Op) : Prop := ∃ d, op = .programByte addr d ∨ op = .busWrite addr d

theorem perform_mem_of_storesNothing {op : Op} (hop : storesNothing op = true) (s : State) :
    (perform op s).mem = s.mem := by
  cases op with
  | tx _ | txStatus | setStatus _ | flashUnlock | flashLock | clearI | enterRxLen => rfl
  | _ => cases hop

theorem perform_i_of_isTurn {addr : Word} {op : Op} (hop : IsTurn addr op) (s : State) :
    (perform op s).i = s.i + 1#9 := by
  obtain ⟨d, rfl | rfl⟩ := hop <;> rfl

/-- A turn stores at most to its own address. -/
theorem perform_read?_of_isTurn {addr : Word} {op : Op} (hop : IsTurn addr op) {s : State} {n : Nat}
    (hn : n ≠ (turnAddr addr s.i).toNat) : (perform op s).mem.read? n = s.mem.read? n := by
  obtain ⟨d, rfl | rfl⟩ := hop
  · simp only [perform, primProgramByte, programEffect_mem]
    split
    · exact read?_write_other s.mem d hn
    · exact read?_forget_other s.mem hn
  · simp only [perform, primBusWrite, busWriteEffect_mem]
    split
    · exact read?_write_other s.mem d hn
    · exact read?_forget_other s.mem hn

theorem perform_writeUpdated {addr : Word} {op : Op} (hop : storesNothing op = true ∨ IsTurn addr op) (s : State) :
    perform op s = writeUpdated s (perform op s) := by
  obtain hop | ⟨d, rfl | rfl⟩ := hop
  · cases op with
    | tx _ | txStatus | setStatus _ | flashUnlock | flashLock | clearI | enterRxLen => rfl
    | _ => cases hop
  · exact writeUpdated_isFrame.chain (takeFl_writeUpdated s) rfl
  · rfl

theorem ne_waitOptIdle_of_storesNothing {op : Op} (hop : storesNothing op = true) : op ≠ .waitOptIdle := by
  rintro rfl
  cases hop

theorem ne_waitOptIdle_of_isTurn {addr : Word} {op : Op} (hop : IsTurn addr op) : op ≠ .waitOptIdle := by
  obtain ⟨d, rfl | rfl⟩ := hop <;> nofun

/-- The parts of a list with a write loop: what comes before the counter is cleared, the turns, and what comes after. -/
structure WriteLoop (addr : Word) (pre turns post : List Op) : Prop where
  before : ∀ op ∈ pre, storesNothing op = true
  turn : ∀ op ∈ turns, IsTurn addr op
  after : ∀ op ∈ post, storesNothing op = true

theorem programMemory_writeLoop (addr : Word) (data : List Byte) :
    WriteLoop addr (ackHeader 1#8 ++ [.flashUnlock, .setStatus Config.stOk]) (data.map (.programByte addr))
      [.flashLock, .txStatus, .enterRxLen] :=
  ⟨by decide, by simp [IsTurn], by decide⟩

theorem volatileMemory_writeLoop (addr : Word) (data : List Byte) :
    WriteLoop addr (ackHeader 1#8) (data.map (.busWrite addr)) [.setStatus Config.stOk, .txStatus, .enterRxLen] :=
  ⟨by decide, by simp [IsTurn], by decide⟩

theorem WriteLoop.mem {addr : Word} {pre turns post : List Op} (h : WriteLoop addr pre turns post) {op : Op}
    (hop : op ∈ pre ++ .clearI :: (turns ++ post)) : storesNothing op = true ∨ IsTurn addr op := by
  simp only [List.mem_append, List.mem_cons] at hop
  obtain hop | rfl | hop | hop := hop
  · exact .inl (h.before op hop)
  · exact .inl rfl
  · exact .inr (h.turn op hop)
  · exact .inl (h.after op hop)

theorem mem_memWriteOps {c : Cfg} {addr : Word} {data : List Byte} {op : Op} (hop : op ∈ memWriteOps c addr data) :
    storesNothing op = true ∨ IsTurn addr op := by
  cases h : classify c addr with
  | invalid =>
    rw [memWriteOps_of_invalid h] at hop
    exact .inl ((by decide : ∀ o ∈ ackHeader 1#8 ++ [.setStatus Config.stFail, .txStatus, .enterRxLen],
      storesNothing o = true) op hop)
  | programMemory => exact (programMemory_writeLoop addr data).mem (memWriteOps_of_programMemory h data ▸ hop)
  | volatileMemory => exact (volatileMemory_writeLoop addr data).mem (memWriteOps_of_volatileMemory h data ▸ hop)

theorem waitOptIdle_notMem_memWriteOps (c : Cfg) (addr : Word) (data : List Byte) :
    .waitOptIdle ∉ memWriteOps c addr data := fun hw =>
  (mem_memWriteOps hw).elim (fun h => ne_waitOptIdle_of_storesNothing h rfl) (fun h => ne_waitOptIdle_of_isTurn h rfl)

/-! ## The bytes of memory it may change (R185, R191) -/

/-- A list without stores leaves memory, wherever it holds. -/
theorem run_mem_of_storesNothing {ops : List Op} (hops : ∀ op ∈ ops, storesNothing op = true) (s : State) :
    (run ops s).mem = s.mem :=
  run_induction (P := fun a => a.mem = s.mem) (fun _ _ h => h) (fun _ h => h) ops s
    (fun hw => absurd rfl (ne_waitOptIdle_of_storesNothing (hops _ hw)))
    (fun op hop a h => (perform_mem_of_storesNothing (hops op hop) a).trans h) rfl

/-- An entry that is no wait holds and changes nothing else, or is performed. -/
theorem run_cons_cases {op : Op} (hop : op ≠ .waitOptIdle) (ops : List Op) (s : State) :
    run (op :: ops) s = { s with step := op :: ops } ∨ ∃ a, (a = s ∨ a = spend s) ∧
      run (op :: ops) s = run ops (perform op a) := by
  obtain ⟨-, ha⟩ | ⟨-, -, ha⟩ | ⟨-, -, ha⟩ := advance_cases op s
  · exact .inr ⟨s, .inl rfl, run_cons_of_done ha⟩
  · exact .inl (by rw [run_cons_of_hold ha, whileHeld_of_ne hop])
  · exact .inr ⟨spend s, .inr rfl, run_cons_of_done ha⟩

/-- From turn `k` on, turns and then entries that store nothing leave every byte that none of these turns addresses. -/
theorem run_turns_read?_other {addr : Word} {turns post : List Op} (hturns : ∀ op ∈ turns, IsTurn addr op)
    (hpost : ∀ op ∈ post, storesNothing op = true) {s : State} {k n : Nat} (hi : s.i = BitVec.ofNat 9 k)
    (hn : ∀ j, k ≤ j → j < k + turns.length → n ≠ (turnAddr addr (BitVec.ofNat 9 j)).toNat) :
    (run (turns ++ post) s).mem.read? n = s.mem.read? n := by
  induction turns generalizing s k with
  | nil => rw [List.nil_append, run_mem_of_storesNothing hpost]
  | cons op turns ih =>
    rw [List.length_cons] at hn
    have hop : IsTurn addr op := hturns op List.mem_cons_self
    obtain h | ⟨a, ha, h⟩ := run_cons_cases (ne_waitOptIdle_of_isTurn hop) (turns ++ post) s <;>
      rw [List.cons_append, h]
    have hai : a.i = s.i := by obtain rfl | rfl := ha <;> rfl
    have hamem : a.mem = s.mem := by obtain rfl | rfl := ha <;> rfl
    have hnext : (perform op a).i = BitVec.ofNat 9 (k + 1) := by rw [perform_i_of_isTurn hop, hai, hi, BitVec.ofNat_add]
    have hhere : n ≠ (turnAddr addr a.i).toNat := by rw [hai, hi]; exact hn k (Nat.le_refl k) (by omega)
    rw [ih (fun o ho => hturns o (List.mem_cons_of_mem _ ho)) hnext fun j hj hj' => hn j (by omega) (by omega),
      perform_read?_of_isTurn hop hhere, hamem]

/-- A list with a write loop leaves every byte that none of its turns addresses. -/
theorem run_writeLoop_read?_other {addr : Word} {pre turns post : List Op} (hloop : WriteLoop addr pre turns post)
    {n : Nat} (hn : ∀ k, k < turns.length → n ≠ (turnAddr addr (BitVec.ofNat 9 k)).toNat) (s : State) :
    (run (pre ++ .clearI :: (turns ++ post)) s).mem.read? n = s.mem.read? n := by
  induction pre generalizing s with
  | nil =>
    rw [List.nil_append, run_cons_of_done (advance_of_callsNothing rfl)]
    exact run_turns_read?_other hloop.turn hloop.after (k := 0) rfl fun j _ hj => hn j (by omega)
  | cons op pre ih =>
    have hop : storesNothing op = true := hloop.before op List.mem_cons_self
    have hrest : WriteLoop addr pre turns post := ⟨fun o ho => hloop.before o (List.mem_cons_of_mem _ ho), hloop.turn,
      hloop.after⟩
    obtain h | ⟨a, ha, h⟩ :=
      run_cons_cases (ne_waitOptIdle_of_storesNothing hop) (pre ++ .clearI :: (turns ++ post)) s <;>
      rw [List.cons_append, h]
    have hamem : a.mem = s.mem := by obtain rfl | rfl := ha <;> rfl
    rw [ih hrest, perform_mem_of_storesNothing hop, hamem]

theorem exec_memWrite_read?_other {s t : State} {addr : Word} {data : List Byte}
    (ht : exec (.memWrite addr data) s = .next t) {n : Nat}
    (hn : ∀ k, k < data.length → n ≠ (turnAddr addr (BitVec.ofNat 9 k)).toNat) :
    t.mem.read? n = s.mem.read? n := by
  obtain rfl := Host.Outcome.next.inj ((exec_eq _ s).symm.trans ht)
  rw [handlerOps, startHandler]
  cases h : classify s.cfg addr with
  | invalid => rw [memWriteOps_of_invalid h, run_mem_of_storesNothing (by decide)]
  | programMemory =>
    rw [memWriteOps_of_programMemory h]
    exact run_writeLoop_read?_other (programMemory_writeLoop addr data) (by rwa [List.length_map]) _
  | volatileMemory =>
    rw [memWriteOps_of_volatileMemory h]
    exact run_writeLoop_read?_other (volatileMemory_writeLoop addr data) (by rwa [List.length_map]) _

/-! ## An invalid address, and volatile memory (R187, R190) -/

/-- To an invalid address MemWrite only transmits and writes STATUS. -/
theorem exec_memWrite_invalid_untouched {s t : State} {addr : Word} {data : List Byte}
    (hinvalid : classify s.cfg addr = .invalid) (ht : exec (.memWrite addr data) s = .next t) :
    ControllerUntouched s t := by
  have hops : handlerOps s.cfg (.memWrite addr data) = _ := memWriteOps_of_invalid hinvalid data
  refine exec_induction (R := ControllerUntouched) ht ⟨rfl, rfl, rfl, rfl, rfl⟩ (fun _ _ h => h) (fun _ h => h)
    (fun hw => ?_) fun op hop a h => ?_
  · rw [hops] at hw
    simp [ackHeader] at hw
  · rw [hops] at hop
    simp only [ackHeader, List.cons_append, List.nil_append, List.mem_cons, List.not_mem_nil, or_false] at hop
    obtain rfl | rfl | rfl | rfl | rfl := hop <;> exact h

theorem perform_flLocked {addr : Word} {op : Op} (hop : storesNothing op = true ∨ IsTurn addr op)
    (hunlock : op ≠ .flashUnlock) (hlock : op ≠ .flashLock) (s : State) : (perform op s).flLocked = s.flLocked := by
  obtain hop | ⟨d, rfl | rfl⟩ := hop
  · cases op with
    | flashUnlock => exact absurd rfl hunlock
    | flashLock => exact absurd rfl hlock
    | tx _ | txStatus | setStatus _ | clearI | enterRxLen => rfl
    | _ => cases hop
  · rfl
  · rfl

/-- To volatile memory there is neither unlock nor lock. -/
theorem exec_memWrite_volatile_flLocked {s t : State} {addr : Word} {data : List Byte}
    (hvolatile : classify s.cfg addr = .volatileMemory) (ht : exec (.memWrite addr data) s = .next t) :
    t.flLocked = s.flLocked := by
  have hunlock : .flashUnlock ∉ memWriteOps s.cfg addr data := by
    simp [memWriteOps_of_volatileMemory hvolatile, ackHeader]
  have hlock : .flashLock ∉ memWriteOps s.cfg addr data := by
    simp [memWriteOps_of_volatileMemory hvolatile, ackHeader]
  exact exec_induction (R := fun a b => b.flLocked = a.flLocked) ht rfl (fun _ _ h => h) (fun _ h => h)
    (fun hw => absurd hw (waitOptIdle_notMem_memWriteOps s.cfg addr data)) fun op hop a h =>
      (perform_flLocked (mem_memWriteOps hop) (fun e => hunlock (e ▸ hop)) (fun e => hlock (e ▸ hop)) a).trans h

/-- Settles O41: each entry stays in the frame (`perform_writeUpdated`), the loop's turns store at their own addresses
(`run_writeLoop_read?_other`), and the other two classes have none of the entries that would touch the rest. -/
theorem memWriteFrame : Obligations.MemWriteFrame := by
  intro s t addr data ht
  refine ⟨?_, fun n hn => exec_memWrite_read?_other ht hn, fun hinvalid => ?_, fun hclass => ?_⟩
  · exact exec_inFrame writeUpdated_isFrame ht (waitOptIdle_notMem_memWriteOps s.cfg addr data)
      fun op hop => perform_writeUpdated (mem_memWriteOps hop)
  · obtain ⟨-, hi, -, -, hmem⟩ := exec_memWrite_invalid_untouched hinvalid ht
    exact ⟨hi, hmem⟩
  · cases h : classify s.cfg addr with
    | invalid =>
      obtain ⟨hlocked, -⟩ := exec_memWrite_invalid_untouched h ht
      exact hlocked
    | programMemory => exact absurd h hclass
    | volatileMemory => exact exec_memWrite_volatile_flLocked h ht

end Sys2Proof.Machine
end

section
/-! PROOFS. Write protection (spec/44_write_protection.md): a protection update up to the wait for its launch and from
there on, completed and not, ReadSectorStatus, and the frame of the two updating commands (R205 to R216). -/

namespace Sys2Proof.Machine

/-! ## The list of a protection update (R205, R207, R209) -/

/-- The handler of either updating command: the Ack header, the seven steps, the status byte (R205). -/
def protectionUpdateOps (value : Byte) : List Op :=
  ackHeader 1#8 ++ updateNwrp value ++ [.setStatus Config.stOk, .txStatus, .enterRxLen]

theorem storedMask_eq_xor (mask : Byte) : storedMask mask = mask ^^^ 0xFF#8 := (BitVec.xor_allOnes (x := mask)).symm

theorem enableWriteProtectOps_of_flag (mask : Byte) :
    enableWriteProtectOps mask 0x01#8 = protectionUpdateOps (mask ^^^ 0xFF#8) := by
  rw [← storedMask_eq_xor]
  rfl

theorem enableWriteProtectOps_of_not_flag (mask : Byte) {flag : Byte} (h : flag ≠ 0x01#8) :
    enableWriteProtectOps mask flag = ackHeader 0#8 ++ [.enterRxLen] := by
  simp [enableWriteProtectOps, flagSet, h]

theorem disableWriteProtectOps_eq : disableWriteProtectOps = protectionUpdateOps 0xFF#8 := rfl

/-! ## Up to the wait for the launch (R205) -/

/-- The entries of a protection update from the wait for its launch on. -/
def launchWaitOps : List Op := [.waitOptIdle, .optLock, .setStatus Config.stOk, .txStatus, .enterRxLen]

/-- A protection update that has launched `value` and comes to that wait. -/
def launched (value : Byte) (s : State) : State :=
  { s with
    ph := .exec
    step := []
    optctl := { optlock := false, optstrt := true, nwrp := value }
    optBusy := true
    txq := s.txq ++ [0xA5#8, 0x01#8]
    trace := s.trace ++
      [.tx 0xA5#8, .tx 0x01#8, .optUnlock, .optWait, .optctlOptlock0, .optctlNwrp value, .optctlOptstrt1]
    env := s.env.draw }

/-- On an idle controller the first wait completes, so every entry before the second is performed. -/
theorem startHandler_protectionUpdate (value : Byte) {s : State} (hg : s.env.grant = none) (hb : s.optBusy = false) :
    startHandler (protectionUpdateOps value) s = run launchWaitOps (launched value s) := by
  have hops : protectionUpdateOps value =
      (ackHeader 1#8 ++ [.optUnlock]) ++ .waitOptIdle ::
        ([.optClearOptlock, .optWriteNwrp value, .optSetOptstrt] ++ launchWaitOps) := rfl
  rw [startHandler, hops, run_append _ _ _ (by simpa using hg) (by simp [ackHeader]),
    run_cons_free (by simpa using hg) (waitsOn_of_idle _ (by exact hb)), run_append _ _ _ (by simpa using hg) (by simp)]
  simp [ackHeader, perform, primTx, primOptUnlock, primWaitOptIdle, primOptClearOptlock, primOptWriteNwrp,
    primOptSetOptstrt, emit, hb, launched]

/-! ## From the wait on (R205, R211, R212) -/

/-- A protection update that waited in `s` and whose launch has completed. -/
def launchStored (s : State) : State :=
  { answered s [0x00#8] [.envOptComplete, .optWait, .optLock, .tx 0x00#8] with
    status := 0x00#8
    optctl := { optlock := true, optstrt := false, nwrp := s.optctl.nwrp }
    optBusy := false
    obNwrp := s.optctl.nwrp
    env := s.env.takeOpt }

theorem run_launchWait_completes {s : State} (hg : s.env.grant = none) (hb : s.optBusy = true)
    (hn : s.env.nextOpt = true) (hs : s.step = []) : run launchWaitOps s = launchStored s := by
  have hw : waitsOn .waitOptIdle s = false := by simp [waitsOn, hn]
  rw [launchWaitOps, run_cons_free hg hw, run_free _ _ (by simpa using hg) (by simp)]
  simp [perform, primWaitOptIdle, hb, optComplete, takeOpt, primOptLock, primTx, emit, Config.stOk, launchStored,
    answered, hs]

theorem run_launchWait_holds {s : State} (hb : s.optBusy = true) (hn : s.env.nextOpt = false) :
    run launchWaitOps s = { takeOpt s with step := launchWaitOps } := by
  have hw : waitsOn .waitOptIdle s = true := by simp [waitsOn, hb, hn]
  rw [launchWaitOps, run_cons_of_hold (advance_of_waitsOn rfl hw), whileHeld_wait, launchMoves_waits hb hn]

/-- A step of a block that holds at the wait takes the wait up again. -/
theorem step_of_launchWait {s : State} (hr : s.rstN = true) (hp : s.ph = .exec) (hs : s.step = launchWaitOps) :
    step s = .next (run launchWaitOps { s with step := [] }) := by
  rw [step_of_running hr (.inr hp), dueOps_of_step hs, launchWaitOps]

theorem step_of_launchWait_holds {s : State} (hr : s.rstN = true) (hp : s.ph = .exec) (hs : s.step = launchWaitOps)
    (hb : s.optBusy = true) (hn : s.env.nextOpt = false) : step s = .next (takeOpt s) := by
  rw [step_of_launchWait hr hp hs, run_launchWait_holds (s := { s with step := [] }) hb hn]
  exact congrArg _ (setStep_self (s := takeOpt s) hs)

theorem step_of_launchWait_completes {s : State} (hr : s.rstN = true) (hp : s.ph = .exec)
    (hs : s.step = launchWaitOps) (hg : s.env.grant = none) (hb : s.optBusy = true) (hn : s.env.nextOpt = true) :
    step s = .next (launchStored s) := by
  rw [step_of_launchWait hr hp hs, run_launchWait_completes (s := { s with step := [] }) hg hb hn rfl]
  rfl

/-! ## The two updating commands (R207, R209, R211, R212) -/

/-- The block after a completed protection update with `value` that began in `s`. -/
def protectionStored (value : Byte) (s : State) : State :=
  { answered s [0xA5#8, 0x01#8, 0x00#8]
      [.tx 0xA5#8, .tx 0x01#8, .optUnlock, .optWait, .optctlOptlock0, .optctlNwrp value, .optctlOptstrt1,
        .envOptComplete, .optWait, .optLock, .tx 0x00#8] with
    status := 0x00#8
    optctl := { optlock := true, optstrt := false, nwrp := value }
    obNwrp := value
    env := envAfterLaunch s }

theorem exec_protectionUpdate_completes {s : State} {i : Instr} {value : Byte}
    (hops : handlerOps s.cfg i = protectionUpdateOps value) (hg : s.env.grant = none) (hb : s.optBusy = false)
    (hc : launchCompletes s = true) : exec i s = .next (protectionStored value s) := by
  rw [exec_eq, hops, startHandler_protectionUpdate value hg hb,
    run_launchWait_completes (s := launched value s) hg rfl hc rfl]
  simp [launchStored, launched, answered, protectionStored, envAfterLaunch, hb]

/-- The block where a protection update with `value` that began in `s` holds, its launch not completed. -/
def launchPending (value : Byte) (s : State) : State := { takeOpt (launched value s) with step := launchWaitOps }

theorem exec_protectionUpdate_holds {s : State} {i : Instr} {value : Byte}
    (hops : handlerOps s.cfg i = protectionUpdateOps value) (hg : s.env.grant = none) (hb : s.optBusy = false)
    (hc : launchCompletes s = false) : exec i s = .next (launchPending value s) := by
  rw [exec_eq, hops, startHandler_protectionUpdate value hg hb,
    run_launchWait_holds (s := launched value s) rfl hc]
  rfl

/-- Settles O33: the flag set, the command is a protection update with the complement of the mask
(`enableWriteProtectOps_of_flag`). -/
theorem enableStoresTheComplement : Obligations.EnableStoresTheComplement := fun _ mask hg hb hc =>
  exec_protectionUpdate_completes (enableWriteProtectOps_of_flag mask) hg hb hc

/-- Settles O35: the command is a protection update with all ones (`disableWriteProtectOps_eq`). -/
theorem disableStoresAllOnes : Obligations.DisableStoresAllOnes := fun _ hg hb hc =>
  exec_protectionUpdate_completes disableWriteProtectOps_eq hg hb hc

/-- Settles O34: the flag not set, the handler is the Ack header (`enableWriteProtectOps_of_not_flag`). -/
theorem enableWithoutFlagDoesNothing : Obligations.EnableWithoutFlagDoesNothing := by
  intro s mask flag hg hflag
  rw [exec_eq, handlerOps, enableWriteProtectOps_of_not_flag mask hflag,
    startHandler_free _ _ hg (by simp [ackHeader])]
  simp [ackHeader, perform, primTx, emit, answered, txs]

/-- Both commands are a protection update, each with its own value. -/
theorem handlerOps_of_updating (c : Cfg) {i : Instr}
    (hi : (∃ mask, i = .enableWriteProtect mask 0x01#8) ∨ i = .disableWriteProtect) :
    ∃ value, handlerOps c i = protectionUpdateOps value ∧
      (∀ mask, i = .enableWriteProtect mask 0x01#8 → value = mask ^^^ 0xFF#8) ∧
      (i = .disableWriteProtect → value = 0xFF#8) := by
  obtain ⟨mask, rfl⟩ | rfl := hi
  · exact ⟨_, enableWriteProtectOps_of_flag mask, fun _ h => by cases h; rfl, nofun⟩
  · exact ⟨_, disableWriteProtectOps_eq, nofun, fun _ => rfl⟩

/-- Settles O36: the command holds at the wait for its launch (`exec_protectionUpdate_holds`), and a step takes that
wait up again, which holds once more (`step_of_launchWait_holds`) or ends (`step_of_launchWait_completes`). -/
theorem uncompletedLaunchHolds : Obligations.UncompletedLaunchHolds := by
  intro s t i hi hr hg hb hc ht
  obtain ⟨value, hops, henable, hdisable⟩ := handlerOps_of_updating s.cfg hi
  obtain rfl := Host.Outcome.next.inj ((exec_protectionUpdate_holds hops hg hb hc).symm.trans ht)
  have hgrant : (launchPending value s).env.grant = none := (Env.takeOpt_grant _).trans hg
  refine ⟨rfl, nofun, rfl, rfl, rfl, rfl, rfl, ?_, henable, hdisable, fun hn => ?_, fun hn => ?_⟩
  · simp [State.rxReady, launchPending, launched]
  · exact step_of_launchWait_holds hr rfl rfl rfl hn
  · exact step_of_launchWait_completes hr rfl rfl hgrant rfl hn

/-! ## ReadSectorStatus (R215, R216) -/

/-- Settles O19: the handler transmits what it has read of `OPTCTL.NWRP`. -/
theorem readSectorStatusAnswers : Obligations.ReadSectorStatusAnswers := by
  intro s hg
  have hbyte : (s.optctl.nwrp.setWidth 32).setWidth 8 = s.optctl.nwrp :=
    BitVec.setWidth_setWidth_of_le s.optctl.nwrp (by decide)
  rw [exec_eq, handlerOps, readSectorStatusOps, startHandler_free _ _ hg (by simp [ackHeader])]
  simp [ackHeader, perform, primTx, primOptReadNwrp, emit, answered, hbyte]

/-- Settles O37: an update that has returned to RX_LEN has completed, since it would hold in EXEC otherwise
(`exec_protectionUpdate_holds`); so `OPTCTL.NWRP` is the complement, which ReadSectorStatus answers (O19). -/
theorem enabledMaskReadsBack : Obligations.EnabledMaskReadsBack := by
  intro s t u mask hg hb ht hph hu
  have hops : handlerOps s.cfg (.enableWriteProtect mask 0x01#8) = protectionUpdateOps _ :=
    enableWriteProtectOps_of_flag mask
  cases hc : launchCompletes s with
  | false =>
    obtain rfl := Host.Outcome.next.inj ((exec_protectionUpdate_holds hops hg hb hc).symm.trans ht)
    cases hph
  | true =>
    obtain rfl := Host.Outcome.next.inj ((exec_protectionUpdate_completes hops hg hb hc).symm.trans ht)
    have hgrant : (protectionStored (mask ^^^ 0xFF#8) s).env.grant = none := (Env.takeOpt_grant _).trans hg
    obtain rfl := Host.Outcome.next.inj ((readSectorStatusAnswers _ hgrant).symm.trans hu)
    simp [protectionStored, ← storedMask_eq_xor, storedMask]

/-! ## The frame of the two updating commands (R205, R207, R209) -/

/-- The first state, with what a protection update may change taken from the second. -/
def protectionUpdated (s t : State) : State :=
  { s with
    ph := t.ph, step := t.step, status := t.status, optctl := t.optctl, optBusy := t.optBusy, obNwrp := t.obNwrp,
    txq := t.txq, trace := t.trace,
    env := { s.env with grant := t.env.grant, optDraws := t.env.optDraws, draws := t.env.draws } }

theorem protectionUpdated_isFrame : IsFrame protectionUpdated := ⟨fun _ _ _ => rfl, fun _ _ _ => rfl, fun _ => rfl⟩

theorem takeOpt_protectionUpdated (s : State) : takeOpt s = protectionUpdated s (takeOpt s) := by
  unfold takeOpt Env.takeOpt
  split <;> rfl

theorem optComplete_takeOpt_protectionUpdated (s : State) :
    optComplete (takeOpt s) = protectionUpdated s (optComplete (takeOpt s)) :=
  protectionUpdated_isFrame.chain (takeOpt_protectionUpdated s) rfl

/-- What the environment does at a launch, while the wait is held, stays in the frame too. -/
theorem launchMoves_protectionUpdated (s : State) : launchMoves s = protectionUpdated s (launchMoves s) := by
  obtain h | h | ⟨-, -, h⟩ := launchMoves_cases s <;> rw [h]
  · rfl
  · exact takeOpt_protectionUpdated s
  · exact optComplete_takeOpt_protectionUpdated s

/-- The entries the two handlers are made of. -/
def isProtectionEntry : Op → Bool
  | .tx _ | .txStatus | .setStatus _ | .optUnlock | .optLock | .waitOptIdle | .optClearOptlock | .optWriteNwrp _
  | .optSetOptstrt | .enterRxLen => true
  | _ => false

theorem perform_protectionUpdated {op : Op} (hop : isProtectionEntry op = true) (s : State) :
    perform op s = protectionUpdated s (perform op s) := by
  cases op with
  | tx _ | txStatus | setStatus _ | optUnlock | optLock | optClearOptlock | optWriteNwrp _ | enterRxLen => rfl
  | waitOptIdle =>
    simp only [perform, primWaitOptIdle]
    split
    · exact protectionUpdated_isFrame.chain (optComplete_takeOpt_protectionUpdated s) rfl
    · rfl
  | optSetOptstrt =>
    simp only [perform, primOptSetOptstrt]
    split <;> rfl
  | _ => cases hop

theorem handlerOps_isProtectionEntry (c : Cfg) {i : Instr}
    (hi : (∃ mask flag, i = .enableWriteProtect mask flag) ∨ i = .disableWriteProtect) :
    ∀ op ∈ handlerOps c i, isProtectionEntry op = true := by
  rw [← List.all_eq_true]
  obtain ⟨mask, flag, rfl⟩ | rfl := hi
  · rw [handlerOps, enableWriteProtectOps]
    split <;> rfl
  · rfl

/-- Settles O42: each entry of the two lists stays in the frame (`perform_protectionUpdated`), and so does the
environment while the wait is held (`launchMoves_protectionUpdated`). -/
theorem protectionUpdateFrame : Obligations.ProtectionUpdateFrame := by
  intro s t i hi ht
  have hf := protectionUpdated_isFrame
  exact exec_induction (R := fun a b => b = protectionUpdated a b) ht (hf.moved s _ _)
    (fun a l h => hf.chain h (hf.moved a a.ph l)) (fun a h => hf.chain h (hf.spent a))
    (fun _ a h => hf.chain h (launchMoves_protectionUpdated a))
    fun op hop a h => hf.chain h (perform_protectionUpdated (handlerOps_isProtectionEntry s.cfg hi op hop) a)

end Sys2Proof.Machine
end

section
/-! PROOFS. The device-info register file (spec/45_device_info.md): the replies that the configuration fixes, the two that
transmit what they have read, and the frame of the constant queries, which is GoToAddress's as well (R225 to R231, R240). -/

namespace Sys2Proof.Machine

/-! ## The frame of the constant queries and of GoToAddress (R67, R225, R226, R231, R240) -/

/-- The first state, with what a command that stores nothing may change taken from the second. -/
def replyUpdated (s t : State) : State :=
  { s with
    ph := t.ph, step := t.step, txq := t.txq, trace := t.trace, env := { s.env with grant := t.env.grant } }

theorem replyUpdated_isFrame : IsFrame replyUpdated := ⟨fun _ _ _ => rfl, fun _ _ _ => rfl, fun _ => rfl⟩

/-- The entries the four handlers are made of. -/
def isReplyEntry : Op → Bool
  | .tx _ | .go _ | .enterRxLen | .enterDead => true
  | _ => false

theorem perform_replyUpdated {op : Op} (hop : isReplyEntry op = true) (s : State) :
    perform op s = replyUpdated s (perform op s) := by
  cases op with
  | tx _ | go _ | enterRxLen | enterDead => rfl
  | _ => cases hop

theorem handlerOps_isReplyEntry (c : Cfg) {i : Instr}
    (hi : i = .getVersion ∨ i = .getHelp ∨ i = .otpRead ∨ ∃ addr, i = .goToAddress addr) :
    ∀ op ∈ handlerOps c i, isReplyEntry op = true := by
  rw [← List.all_eq_true]
  obtain rfl | rfl | rfl | ⟨addr, rfl⟩ := hi
  · rfl
  · simp only [handlerOps, getHelpOps, List.all_append, List.all_map, Bool.and_eq_true]
    exact ⟨⟨rfl, List.all_eq_true.2 fun _ _ => rfl⟩, rfl⟩
  · rfl
  · rw [handlerOps, goToAddressOps]
    cases classify c addr <;> rfl

/-- Settles O38: each entry of the four lists only transmits, hands over or moves the sequencer (`perform_replyUpdated`). -/
theorem constantQueriesAndTransferFrame : Obligations.ConstantQueriesAndTransferFrame := by
  intro s t i hi ht
  have hentry := handlerOps_isReplyEntry s.cfg hi
  exact exec_inFrame replyUpdated_isFrame ht (fun hw => absurd (hentry _ hw) (by decide))
    fun op hop => perform_replyUpdated (hentry op hop)

/-! ## The constant replies (R225, R226, R231) -/

/-- A command whose list only transmits bytes and returns answers those bytes and changes nothing else. -/
theorem exec_of_txs {i : Instr} {s : State} {bytes : List Byte} (hg : s.env.grant = none)
    (hops : handlerOps s.cfg i = bytes.map .tx ++ [.enterRxLen]) :
    exec i s = .next (answered s bytes (txs bytes)) := by
  rw [exec_eq, hops, startHandler_free _ _ hg (by simp), performAll_append, performAll_txs]
  rfl

/-- Settles O15: both lists transmit three fixed bytes (`exec_of_txs`). -/
theorem versionAndStubAreAnswered : Obligations.VersionAndStubAreAnswered := fun _ hg =>
  ⟨exec_of_txs hg rfl, exec_of_txs hg rfl⟩

/-- The reply length is `0x0C`, because R11 leaves one list. -/
theorem getHelpOps_of_valid {c : Cfg} (hc : c.valid = true) :
    getHelpOps c = (0xA5#8 :: 0x0C#8 :: c.helpList).map .tx ++ [.enterRxLen] := by
  rw [getHelpOps, helpList_of_valid hc]
  rfl

/-- Settles O16: the list transmits its length and `HELP_LIST` (`getHelpOps_of_valid`), which is the twelve opcode values
(`helpList_of_valid`). -/
theorem getHelpAnswers : Obligations.GetHelpAnswers := by
  intro s hc hg
  refine ⟨exec_of_txs hg (getHelpOps_of_valid hc), ?_⟩
  rw [helpList_of_valid hc]
  exact ⟨rfl, rfl, by decide, by decide⟩

/-! ## The replies that are read (R227 to R230) -/

/-- Settles O17: the debug-ID field is read into `v`, from which the handler transmits the two bytes of `chipId`. -/
theorem getChipIdAnswers : Obligations.GetChipIdAnswers := by
  intro s hg id
  have hid : chipId s.cfg s.dbgId = id := rfl
  rw [exec_eq, handlerOps, getChipIdOps, startHandler_free _ _ hg (by simp [ackHeader])]
  simp [ackHeader, perform, primTx, primDbgIdRead, emit, answered, hid]

/-- Settles O18: the byte is read into `v` and transmitted from there, all 8 bits of it. -/
theorem getReadoutProtectionStatusAnswers : Obligations.GetReadoutProtectionStatusAnswers := by
  intro s hg
  have hbyte : (s.obRdp.setWidth 32).setWidth 8 = s.obRdp := BitVec.setWidth_setWidth_of_le s.obRdp (by decide)
  rw [exec_eq, handlerOps, getReadoutProtectionStatusOps, startHandler_free _ _ hg (by simp [ackHeader])]
  simp [ackHeader, perform, primTx, primObReadRdp, emit, answered, hbyte]

end Sys2Proof.Machine
end

section
/-! PROOFS. GoToAddress (spec/46_execution_transfer.md): the class of the address decides which list the handler runs, and
the target of the hand-over over the naturals (R240 to R243). -/

namespace Sys2Proof.Machine

/-! ## The list of each class and the target (R241 to R243) -/

theorem goToAddressOps_of_invalid {c : Cfg} {addr : Word} (h : classify c addr = .invalid) :
    goToAddressOps c addr = [0xA5#8, 0x01#8, c.addrInvalid].map .tx ++ [.enterRxLen] := by
  rw [goToAddressOps, h]
  rfl

theorem goToAddressOps_of_not_invalid {c : Cfg} {addr : Word} (h : classify c addr ≠ .invalid) :
    goToAddressOps c addr = [0xA5#8, 0x01#8, c.addrValid].map .tx ++ [.go (goTarget addr), .enterDead] := by
  cases hclass : classify c addr with
  | programMemory | volatileMemory =>
    rw [goToAddressOps, hclass]
    rfl
  | invalid => exact absurd hclass h

/-- The increment discards the carry (R242). -/
theorem goTarget_eq_ofNat (addr : Word) : goTarget addr = BitVec.ofNat 32 (addr.toNat + 1) := by
  rw [BitVec.ofNat_add, BitVec.ofNat_toNat, BitVec.setWidth_eq, goTarget]

/-! ## The two outcomes (R240 to R243) -/

/-- Settles O21: an address of a region gets its validity byte (`performAll_txs`), then the two entries that hand over
(`goToAddressOps_of_not_invalid`); for any other address the list only transmits and returns (`exec_of_txs`). -/
theorem goToAddressTransfers : Obligations.GoToAddressTransfers := by
  refine fun s addr hg => ⟨fun hregion => ?_, fun hinvalid => exec_of_txs hg (goToAddressOps_of_invalid hinvalid)⟩
  rw [exec_eq, handlerOps, goToAddressOps_of_not_invalid hregion, startHandler_free _ _ hg (by simp),
    performAll_append, performAll_txs, ← goTarget_eq_ofNat]
  simp [perform, primGo, emit, txs]

end Sys2Proof.Machine
end

section
/-! PROOFS. The payload-length check of phase EXEC (spec/40_frame_dispatch_crc.md R140; spec/60_exceptions.md R254): the
check on the latches is the decoder's `NEED` (R108), and it alone decides between the raised kind and the handler. -/

namespace Sys2Proof

/-! ## The check in the decoder (R108, R140) -/

/-- The assigned values are those of the rows: the other half of `Machine.opcodeValue_mem`. -/
theorem exists_opcodeValue_eq {b : Byte} (hb : b ∈ Config.opcodeValues) : ∃ o, opcodeValue o = b := by
  have hrows : Config.opcodeValues = opcodeRows.map opcodeValue := rfl
  obtain ⟨o, -, ho⟩ := List.mem_map.1 (hrows ▸ hb)
  exact ⟨o, ho⟩

/-- A row whose operands the payload does not hold is refused; `decodeBody_of_need` is the other case. -/
theorem decodeBody_of_lt_need {frame : List Byte} {o : Opcode} (ho : opcodeValue o = byteAt frame 1)
    (hshort : (payloadOf frame).length < need (formatOf o) (payloadOf frame)) :
    decodeBody frame = .error .badPayloadLength := by
  simp [decodeBody, opcodeOf_eq_some.2 ho, hshort]

namespace Machine

/-! ## The check on the latches (R24, R108) -/

/-- The payload is shorter than the operands of the opcode, said of the latches `OPC`, `PLEN` and `DLEN` (R108). -/
def payloadShort (s : State) : Prop :=
  (s.latchOpc = 0x55#8 ∧ s.latchPlen < 4) ∨
  ((s.latchOpc = 0x56#8 ∨ s.latchOpc = 0x58#8) ∧ s.latchPlen < 2) ∨
  (s.latchOpc = 0x59#8 ∧ s.latchPlen < 5) ∨
  (s.latchOpc = 0x57#8 ∧ (s.latchPlen < 5 ∨ s.latchPlen < 5 + s.latchDlen.toNat))

/-- Format WRITE: `DLEN` stands in the payload as soon as five bytes of it are there. -/
theorem lt_need_write_iff {s : State} (hlen : 5 ≤ s.len.toNat) :
    s.latchPlen < need .write (payloadOf s.frame) ↔ s.latchPlen < 5 ∨ s.latchPlen < 5 + s.latchDlen.toNat := by
  rw [need, payloadOf_frame_length hlen]
  split
  next hlt => simp [hlt]
  next hge =>
    have hfifth : 4 < (payloadOf s.frame).length := by rw [payloadOf_frame_length hlen]; omega
    have hdlen : byteAt (payloadOf s.frame) 4 = s.latchDlen := byteAt_payload hlen hfifth
    simp [hge, hdlen]

/-- The latches say the same as the decoder's check. -/
theorem payloadShort_iff {s : State} {o : Opcode} (hlen : 5 ≤ s.len.toNat) (ho : opcodeValue o = s.latchOpc) :
    payloadShort s ↔ (payloadOf s.frame).length < need (formatOf o) (payloadOf s.frame) := by
  rw [payloadOf_frame_length hlen, payloadShort, ← ho]
  cases o with
  | memWrite => simp [opcodeValue, formatOf, lt_need_write_iff hlen]
  | _ => simp [opcodeValue, formatOf, need]

/-! ## The two outcomes (R140, R254) -/

/-- Settles O14: the opcode has a row (`exists_opcodeValue_eq`), and the latches say what the decoder's check says
(`payloadShort_iff`). A short payload makes EXEC only raise the kind (`run_raiseOps`); otherwise the row's command is
decoded (`decodeBody_of_need`) and run (`stepRunsDecodedCommand`). -/
theorem payloadLengthDecides : Obligations.PayloadLengthDecides := by
  intro s hr hp hs hlen hopc
  obtain ⟨o, ho⟩ := exists_opcodeValue_eq hopc
  have hbyte : opcodeValue o = byteAt s.frame 1 :=
    ho.trans (byteAt_frame (Nat.lt_of_lt_of_le (by decide) (Nat.le_succ_of_le hlen))).symm
  refine ⟨fun hshort hg => ?_, fun hfits => ?_⟩
  · have hneed := (payloadShort_iff hlen ho).1 hshort
    rw [step_of_start hr (.inr hp) hs, dueOps_of_raised hp hs (decodeBody_of_lt_need hbyte hneed), run_raiseOps hs hg]
    rfl
  · have hneed := Nat.le_of_not_lt (hfits ∘ (payloadShort_iff hlen ho).2)
    refine ⟨operandsOf o (payloadOf s.frame), ?_, ?_⟩
    · rw [opcodeByte, rowOf_operandsOf, ho]
    · exact stepRunsDecodedCommand s _ hr hp hs (decodeBody_of_need hbyte hneed)

end Machine

end Sys2Proof
end
